-- ==== Sys2Proof/Word.lean ====
section
/-! DEFINITION. Sys2Proof/Word.lean: the machine's words. A buffer element is a byte (8 bits), a control or status
register is 32 bits, the canonical sample is 16 bits, two's complement (00_scope.md R7, R8; 10_state.md R22, R26). -/

namespace Sys2Proof

/-- One buffer element, and one companded sample (`BYTE`, `CODE_W`: R7). -/
abbrev Byte := BitVec 8

/-- A control or status register, and a length, count or window pointer (`LENW` = 32: R7, R26). -/
abbrev Word := BitVec 32

/-- The canonical signed 16-bit linear sample (`SAMPLE_W`: R7); its number is `BitVec.toInt`. -/
abbrev Sample := BitVec 16

/-- One window of a buffer, lowest buffer index first (00_scope.md R12, 20_memory.md R54). -/
abbrev Window := List Byte

end Sys2Proof
end

