-- ==== Sys2Proof/Syntax.lean ====
section
/-! DEFINITION. Sys2Proof/Syntax.lean: the instructions, one constructor of `Instr` per row of spec/opcode_table.json:
three commands, which a write of the command word `CW` spells, and thirty micro-operations, which the fields of a
command word select (30_encoding.md R80 to R86). -/

namespace Sys2Proof

/-- The two output formats, selected by `LAW` = `CW[2]` (30_encoding.md R82). -/
inductive Law where
  | mulaw
  | alaw
deriving DecidableEq, Repr

/-- The 18 input formats, in the order of the opcode table (30_encoding.md R84). -/
inductive Fmt where
  | s8 | u8
  | s16be | s16le | u16be | u16le
  | s24be | s24le | u24be | u24le
  | s32be | s32le | u32be | u32le
  | f32be | f32le | f64be | f64le
deriving DecidableEq, Repr

/-- The kind of an input format, `KIND` = `CW[8:7]` (10_state.md R27). -/
inductive Kind where
  | signed
  | unsigned
  | float
deriving DecidableEq, Repr

/-- The eight sample rates that have filter coefficients: every rate but 8000 Hz (10_state.md R31, 30_encoding.md R86). -/
inductive FiltRate where
  | r11025 | r16000 | r22050 | r32000 | r44100 | r48000 | r96000 | r192000
deriving DecidableEq, Repr

/-- The nine sample rates. 8000 Hz has no coefficients and is never filtered (30_encoding.md R86, 10_state.md R31). -/
inductive Rate where
  | r8000
  | filt (q : FiltRate)
deriving DecidableEq, Repr

/-- The two byte spaces (10_state.md R33). -/
inductive Space where
  | input
  | output
deriving DecidableEq, Repr

/-- The instructions. A command also carries the bits of the fields it ignores (30_encoding.md R81, R91), so that no
bit of a legal command word is lost in decoding; no meaning reads them. -/
inductive Instr where
  /-- `NOP` (44_encode_sequencer.md R240); `ignored` is `CW[17:2]`. -/
  | nop (ignored : BitVec 16)
  /-- `ENCODE` (44_encode_sequencer.md R230); `ignored` is `CW[17:9]`: `RATE`, `TARGET`, `INPLACE`. -/
  | encode (law : Law) (fmt : Fmt) (ignored : BitVec 9)
  /-- `RESAMPLE` (43_iir_lp_decimator.md R209); `ignored` is `CW[2]`: `LAW`. -/
  | resample (fmt : Fmt) (rate target : Rate) (inplace : Bool) (ignored : BitVec 1)
  -- the sample decoder, 40_sample_decoder.md R112 to R129
  | decS8 | decU8
  | decS16be | decS16le | decU16be | decU16le
  | decS24be | decS24le | decU24be | decU24le
  | decS32be | decS32le | decU32be | decU32le
  | decF32be | decF32le | decF64be | decF64le
  /-- `CMP.MULAW` (41_mulaw_compander.md R150). -/
  | cmpMulaw
  /-- `CMP.ALAW` (42_alaw_compander.md R170). -/
  | cmpAlaw
  -- the low-pass filter, 43_iir_lp_decimator.md R198 to R206; the operand `F = FMT`
  | lpf8000 (fmt : Fmt)
  | lpf11025 (fmt : Fmt)
  | lpf16000 (fmt : Fmt)
  | lpf22050 (fmt : Fmt)
  | lpf32000 (fmt : Fmt)
  | lpf44100 (fmt : Fmt)
  | lpf48000 (fmt : Fmt)
  | lpf96000 (fmt : Fmt)
  | lpf192000 (fmt : Fmt)
  /-- `DECIM` (43_iir_lp_decimator.md R207); the operands `RATE` and `TARGET`. -/
  | decim (rate target : Rate)
deriving DecidableEq, Repr

end Sys2Proof
end

