-- ==== Sys2Proof/WellFormed.lean ====
section
/-! DEFINITION. Sys2Proof/WellFormed.lean: which instructions a command word can spell. Every operand of `Instr` is an
enumeration or a bit field whose every value is legal, so nothing else can be ill formed: what is left to check is that
the instruction is a COMMAND. "Micro-operations … are not host actions" (30_encoding.md R92): a micro-operation runs
only inside a command whose fields select it (R80, R81), and is refused here as a launch of its own. -/

namespace Sys2Proof

/-- The four unit classes of the micro-operations, and the commands. -/
inductive InstrClass where
  | command
  | decoder
  | compander
  | filter
  | decimator
deriving DecidableEq, Repr

/-- The class of an instruction (00_scope.md R2). -/
def Instr.cls : Instr → InstrClass
  | .nop _ | .encode _ _ _ | .resample _ _ _ _ _ => .command
  | .decS8 | .decU8 | .decS16be | .decS16le | .decU16be | .decU16le | .decS24be | .decS24le | .decU24be | .decU24le
  | .decS32be | .decS32le | .decU32be | .decU32le | .decF32be | .decF32le | .decF64be | .decF64le => .decoder
  | .cmpMulaw | .cmpAlaw => .compander
  | .lpf8000 _ | .lpf11025 _ | .lpf16000 _ | .lpf22050 _ | .lpf32000 _ | .lpf44100 _ | .lpf48000 _ | .lpf96000 _
  | .lpf192000 _ => .filter
  | .decim _ _ => .decimator

/-- A well-formed instruction is one a command word spells: `NOP`, `ENCODE` or `RESAMPLE` (30_encoding.md R81, R92). -/
def Instr.wellFormed (i : Instr) : Bool := i.cls == .command

end Sys2Proof
end

