-- ==== Sys2Proof/Decode.lean ====
section
/-! DEFINITION. Sys2Proof/Decode.lean: the command word `CW` (30_encoding.md R80 to R91): the code tables of its fields,
the decoder (total on every 32-bit word, rejecting by name), the micro-operations a command selects, and the encoder. -/

namespace Sys2Proof

/-! ## The code tables -/

/-- `FMT = CW[8:3] = {KIND, BW, LE}` of a format, the column `FMT` of R84. -/
def Fmt.code : Fmt → BitVec 6
  | .s8 => 0x00#6 | .u8 => 0x10#6
  | .s16be => 0x02#6 | .s16le => 0x03#6 | .u16be => 0x12#6 | .u16le => 0x13#6
  | .s24be => 0x04#6 | .s24le => 0x05#6 | .u24be => 0x14#6 | .u24le => 0x15#6
  | .s32be => 0x06#6 | .s32le => 0x07#6 | .u32be => 0x16#6 | .u32le => 0x17#6
  | .f32be => 0x26#6 | .f32le => 0x27#6 | .f64be => 0x2E#6 | .f64le => 0x2F#6

/-- The format a code names. The 46 codes not listed are reserved (R84, R85, R90). -/
def fmtOfCode (c : BitVec 6) : Option Fmt :=
  match c.toNat with
  | 0x00 => some .s8 | 0x10 => some .u8
  | 0x02 => some .s16be | 0x03 => some .s16le | 0x12 => some .u16be | 0x13 => some .u16le
  | 0x04 => some .s24be | 0x05 => some .s24le | 0x14 => some .u24be | 0x15 => some .u24le
  | 0x06 => some .s32be | 0x07 => some .s32le | 0x16 => some .u32be | 0x17 => some .u32le
  | 0x26 => some .f32be | 0x27 => some .f32le | 0x2E => some .f64be | 0x2F => some .f64le
  | _ => none

/-- The byte width `bw` of a format, `BW + 1` (R83, the column `bw` of R84). -/
def Fmt.bw : Fmt → Nat
  | .s8 | .u8 => 1
  | .s16be | .s16le | .u16be | .u16le => 2
  | .s24be | .s24le | .u24be | .u24le => 3
  | .s32be | .s32le | .u32be | .u32le | .f32be | .f32le => 4
  | .f64be | .f64le => 8

/-- The little-endian flag `LE` of a format; one-byte formats are spelled with `LE = 0` (R83, R85). -/
def Fmt.le : Fmt → Bool
  | .s16le | .u16le | .s24le | .u24le | .s32le | .u32le | .f32le | .f64le => true
  | .s8 | .u8 | .s16be | .u16be | .s24be | .u24be | .s32be | .u32be | .f32be | .f64be => false

/-- The kind of a format (R83, the column `KIND` of R84). -/
def Fmt.kind : Fmt → Kind
  | .s8 | .s16be | .s16le | .s24be | .s24le | .s32be | .s32le => .signed
  | .u8 | .u16be | .u16le | .u24be | .u24le | .u32be | .u32le => .unsigned
  | .f32be | .f32le | .f64be | .f64le => .float

/-- `KIND` = `CW[8:7]`: 0 signed, 1 unsigned, 2 float (10_state.md R27). -/
def Kind.code : Kind → BitVec 2
  | .signed => 0#2
  | .unsigned => 1#2
  | .float => 2#2

/-- `LAW` = `CW[2]`: 0 Mulaw, 1 Alaw (R82). -/
def Law.code : Law → BitVec 1
  | .mulaw => 0#1
  | .alaw => 1#1

/-- The law a bit names (R82). -/
def lawOfCode (c : BitVec 1) : Law := if c = 0#1 then .mulaw else .alaw

/-- The rate code of R86, used by `RATE` and by `TARGET`. -/
def Rate.code : Rate → BitVec 4
  | .r8000 => 0#4
  | .filt .r11025 => 1#4
  | .filt .r16000 => 2#4
  | .filt .r22050 => 3#4
  | .filt .r32000 => 4#4
  | .filt .r44100 => 5#4
  | .filt .r48000 => 6#4
  | .filt .r96000 => 7#4
  | .filt .r192000 => 8#4

/-- The rate a code names; 9..15 are reserved (R86, R90). -/
def rateOfCode (c : BitVec 4) : Option Rate :=
  match c.toNat with
  | 0 => some .r8000
  | 1 => some (.filt .r11025)
  | 2 => some (.filt .r16000)
  | 3 => some (.filt .r22050)
  | 4 => some (.filt .r32000)
  | 5 => some (.filt .r44100)
  | 6 => some (.filt .r48000)
  | 7 => some (.filt .r96000)
  | 8 => some (.filt .r192000)
  | _ => none

/-- `Hz(code)`, the second column of R86. -/
def Rate.hz : Rate → Nat
  | .r8000 => 8000
  | .filt .r11025 => 11025
  | .filt .r16000 => 16000
  | .filt .r22050 => 22050
  | .filt .r32000 => 32000
  | .filt .r44100 => 44100
  | .filt .r48000 => 48000
  | .filt .r96000 => 96000
  | .filt .r192000 => 192000

/-! ## The fields of a command word (R80) -/

/-- `CMD`, bits 1:0. -/
def cwCmd (w : Word) : BitVec 2 := w.extractLsb' 0 2
/-- `LAW`, bit 2. -/
def cwLaw (w : Word) : BitVec 1 := w.extractLsb' 2 1
/-- `FMT`, bits 8:3. -/
def cwFmt (w : Word) : BitVec 6 := w.extractLsb' 3 6
/-- `RATE`, bits 12:9. -/
def cwRate (w : Word) : BitVec 4 := w.extractLsb' 9 4
/-- `TARGET`, bits 16:13. -/
def cwTarget (w : Word) : BitVec 4 := w.extractLsb' 13 4
/-- `INPLACE`, bit 17. -/
def cwInplace (w : Word) : BitVec 1 := w.extractLsb' 17 1
/-- The reserved field, bits 31:18. -/
def cwReserved (w : Word) : BitVec 14 := w.extractLsb' 18 14

/-! ## The decoder -/

/-- Why a word spells no command: the four conditions of R90. Where several hold, the one listed first is named. -/
inductive Reject where
  /-- `CW[31:18] != 0` (R90 item 1). -/
  | reservedBits
  /-- `CMD = 3` (R90 item 2). -/
  | reservedCommand
  /-- `CMD` is 1 or 2 and `FMT` is none of the 18 codes (R90 item 3). -/
  | reservedFormat
  /-- `CMD = 2` and `RATE > 8` (R90 item 4). -/
  | reservedRate
  /-- `CMD = 2` and `TARGET > 8` (R90 item 4). -/
  | reservedTarget
deriving DecidableEq, Repr

/-- The command a word spells, or the reason why it spells none (R81, R90, R91). -/
def decode (w : Word) : Except Reject Instr :=
  if cwReserved w ≠ 0#14 then .error .reservedBits
  else if cwCmd w = 0#2 then .ok (.nop (w.extractLsb' 2 16))
  else if cwCmd w = 3#2 then .error .reservedCommand
  else
    match fmtOfCode (cwFmt w) with
    | none => .error .reservedFormat
    | some f =>
      if cwCmd w = 1#2 then .ok (.encode (lawOfCode (cwLaw w)) f (w.extractLsb' 9 9))
      else
        match rateOfCode (cwRate w) with
        | none => .error .reservedRate
        | some r =>
          match rateOfCode (cwTarget w) with
          | none => .error .reservedTarget
          | some t => .ok (.resample f r t (cwInplace w == 1#1) (cwLaw w))

/-! ## The micro-operations a command selects -/

/-- The `DEC.*` micro-operation of a format (R84). -/
def Fmt.dec : Fmt → Instr
  | .s8 => .decS8 | .u8 => .decU8
  | .s16be => .decS16be | .s16le => .decS16le | .u16be => .decU16be | .u16le => .decU16le
  | .s24be => .decS24be | .s24le => .decS24le | .u24be => .decU24be | .u24le => .decU24le
  | .s32be => .decS32be | .s32le => .decS32le | .u32be => .decU32be | .u32le => .decU32le
  | .f32be => .decF32be | .f32le => .decF32le | .f64be => .decF64be | .f64le => .decF64le

/-- The `CMP.*` micro-operation of a law (R82). -/
def Law.cmp : Law → Instr
  | .mulaw => .cmpMulaw
  | .alaw => .cmpAlaw

/-- The `LPF.*` micro-operation of a source rate (R86), with its operand `F = FMT`. -/
def Rate.lpf (r : Rate) (f : Fmt) : Instr :=
  match r with
  | .r8000 => .lpf8000 f
  | .filt .r11025 => .lpf11025 f
  | .filt .r16000 => .lpf16000 f
  | .filt .r22050 => .lpf22050 f
  | .filt .r32000 => .lpf32000 f
  | .filt .r44100 => .lpf44100 f
  | .filt .r48000 => .lpf48000 f
  | .filt .r96000 => .lpf96000 f
  | .filt .r192000 => .lpf192000 f

/-- The micro-operations the fields of a command select, in the order the command runs them (R81; 44_encode_sequencer.md
R234, 43_iir_lp_decimator.md R209). A micro-operation selects nothing. -/
def Instr.microOps : Instr → List Instr
  | .encode l f _ => [f.dec, l.cmp]
  | .resample f r t _ _ => [r.lpf f, .decim r t]
  | _ => []

/-- The micro-operations the word `w` selects: none where it spells no command (R80, R81, R90). -/
def selectedMicroOps (w : Word) : List Instr :=
  match decode w with
  | .ok i => i.microOps
  | .error _ => []

/-! ## The encoder -/

/-- The word with the given fields at the bit positions of R80, the reserved field 0. -/
def commandWord (inplace : BitVec 1) (target rate : BitVec 4) (fmt : BitVec 6) (law : BitVec 1) (cmd : BitVec 2) : Word :=
  BitVec.ofNat 32 (cmd.toNat + law.toNat * 2 ^ 2 + fmt.toNat * 2 ^ 3 + rate.toNat * 2 ^ 9 + target.toNat * 2 ^ 13 +
    inplace.toNat * 2 ^ 17)

/-- The word of a command, and for a micro-operation a command word whose fields select it, every field the table leaves
free being 0 (R80 to R86): `DEC.*` by `ENCODE` with its `FMT`, `CMP.*` by `ENCODE S8` with its `LAW`, `LPF.*` by
`RESAMPLE` with its `RATE`, `DECIM` by `RESAMPLE S8` with its `RATE` and `TARGET`. -/
def encode : Instr → Word
  | .nop ign => BitVec.ofNat 32 (ign.toNat * 2 ^ 2)
  | .encode l f ign => BitVec.ofNat 32 (1 + l.code.toNat * 2 ^ 2 + f.code.toNat * 2 ^ 3 + ign.toNat * 2 ^ 9)
  | .resample f r t ip ign => commandWord (if ip then 1#1 else 0#1) t.code r.code f.code ign 2#2
  | .decS8 => commandWord 0#1 0#4 0#4 (Fmt.code .s8) 0#1 1#2
  | .decU8 => commandWord 0#1 0#4 0#4 (Fmt.code .u8) 0#1 1#2
  | .decS16be => commandWord 0#1 0#4 0#4 (Fmt.code .s16be) 0#1 1#2
  | .decS16le => commandWord 0#1 0#4 0#4 (Fmt.code .s16le) 0#1 1#2
  | .decU16be => commandWord 0#1 0#4 0#4 (Fmt.code .u16be) 0#1 1#2
  | .decU16le => commandWord 0#1 0#4 0#4 (Fmt.code .u16le) 0#1 1#2
  | .decS24be => commandWord 0#1 0#4 0#4 (Fmt.code .s24be) 0#1 1#2
  | .decS24le => commandWord 0#1 0#4 0#4 (Fmt.code .s24le) 0#1 1#2
  | .decU24be => commandWord 0#1 0#4 0#4 (Fmt.code .u24be) 0#1 1#2
  | .decU24le => commandWord 0#1 0#4 0#4 (Fmt.code .u24le) 0#1 1#2
  | .decS32be => commandWord 0#1 0#4 0#4 (Fmt.code .s32be) 0#1 1#2
  | .decS32le => commandWord 0#1 0#4 0#4 (Fmt.code .s32le) 0#1 1#2
  | .decU32be => commandWord 0#1 0#4 0#4 (Fmt.code .u32be) 0#1 1#2
  | .decU32le => commandWord 0#1 0#4 0#4 (Fmt.code .u32le) 0#1 1#2
  | .decF32be => commandWord 0#1 0#4 0#4 (Fmt.code .f32be) 0#1 1#2
  | .decF32le => commandWord 0#1 0#4 0#4 (Fmt.code .f32le) 0#1 1#2
  | .decF64be => commandWord 0#1 0#4 0#4 (Fmt.code .f64be) 0#1 1#2
  | .decF64le => commandWord 0#1 0#4 0#4 (Fmt.code .f64le) 0#1 1#2
  | .cmpMulaw => commandWord 0#1 0#4 0#4 0#6 (Law.code .mulaw) 1#2
  | .cmpAlaw => commandWord 0#1 0#4 0#4 0#6 (Law.code .alaw) 1#2
  | .lpf8000 f => commandWord 0#1 0#4 0#4 f.code 0#1 2#2
  | .lpf11025 f => commandWord 0#1 0#4 1#4 f.code 0#1 2#2
  | .lpf16000 f => commandWord 0#1 0#4 2#4 f.code 0#1 2#2
  | .lpf22050 f => commandWord 0#1 0#4 3#4 f.code 0#1 2#2
  | .lpf32000 f => commandWord 0#1 0#4 4#4 f.code 0#1 2#2
  | .lpf44100 f => commandWord 0#1 0#4 5#4 f.code 0#1 2#2
  | .lpf48000 f => commandWord 0#1 0#4 6#4 f.code 0#1 2#2
  | .lpf96000 f => commandWord 0#1 0#4 7#4 f.code 0#1 2#2
  | .lpf192000 f => commandWord 0#1 0#4 8#4 f.code 0#1 2#2
  | .decim r t => commandWord 0#1 t.code r.code 0#6 0#1 2#2

/-! ## The host's question -/

/-- The 32-bit command word of a table word of `nbits` bits: every bit above `nbits` is 0 (the table numbers the bits of
`CW` as the spec does: bit 0 is the least significant, R8). -/
def tableWord (nbits w : Nat) : Word := BitVec.ofNat 32 (w % 2 ^ nbits)

/-- The instruction the decoder reads from a table word. The block's only encoded instructions are its commands: for the
row of a micro-operation the word is the command word those bits spell (`NOP` where `CMD` is 0), and the
micro-operations it selects are `selectedMicroOps` (R80, R81). -/
def decodeTableWord (nbits w : Nat) : Option Instr :=
  match decode (tableWord nbits w) with
  | .ok i => some i
  | .error _ => none

end Sys2Proof
end

