-- ==== Sys2Proof/Config.lean ====
section
/-! DEFINITION. Sys2Proof/Config.lean: what the spec leaves open (00_scope.md R7; 93_implementation_defined.md), each an
opaque constant with no body, so that nothing can be proved of its value: the sample a NaN decodes to, the filter's
arithmetic and coefficients, the bytes of the windows a decimation frees, and the buffers' contents after reset. -/

namespace Sys2Proof

/-- The carrier of the filter's numbers, `LPF_ARITH.T` (43_iir_lp_decimator.md R192). The spec leaves the number type
open. DESIGN CHOICE: the carrier is the rationals, the type of the spec's own instance `REF_ARITH` (R197); the operations
on it are uninterpreted, so any countable number type is an instance (its values named by rationals). Safe: no law of
rational arithmetic holds of `Config.lpfMul` or `Config.lpfAdd`. notes/assumptions/3.md. -/
abbrev LpfT := Rat

/-- The record `LPF_ARITH` of 43_iir_lp_decimator.md R192: `T` is `LpfT`, and each member is a total function of its
arguments alone. `pack` yields exactly one window of the format's byte width. -/
structure LpfArith where
  zero : LpfT
  unpack : Fmt → Window → LpfT
  mul : LpfT → LpfT → LpfT
  add : LpfT → LpfT → LpfT
  pack : (f : Fmt) → LpfT → Vector Byte f.bw

/-- One entry `(a1, a2, b0, b1, b2)` of the table `COEF` (43_iir_lp_decimator.md R193; 10_state.md R31). -/
structure Coef where
  a1 : LpfT
  a2 : LpfT
  b0 : LpfT
  b1 : LpfT
  b2 : LpfT
deriving DecidableEq, Repr, Inhabited

/-- `NAN_SAMPLE`: the sample a NaN input decodes to (40_sample_decoder.md R131; 93_implementation_defined.md UB7).
Free value, notes/assumptions/1.md. -/
opaque Config.nanSample : Sample

/-- `LPF_ARITH.zero` (R192; UB9). Free value, notes/assumptions/3.md. -/
opaque Config.lpfZero : LpfT
/-- `LPF_ARITH.unpack` (R192; UB9). Free value, notes/assumptions/3.md. -/
opaque Config.lpfUnpack : Fmt → Window → LpfT
/-- `LPF_ARITH.mul` (R192; UB9). Free value, notes/assumptions/3.md. -/
opaque Config.lpfMul : LpfT → LpfT → LpfT
/-- `LPF_ARITH.add` (R192; UB9). Free value, notes/assumptions/3.md. -/
opaque Config.lpfAdd : LpfT → LpfT → LpfT
/-- `LPF_ARITH.pack` (R192; UB9). Free value, notes/assumptions/3.md. -/
opaque Config.lpfPack : (f : Fmt) → LpfT → Vector Byte f.bw

/-- The open arithmetic of the hardware's filter, `LPF_ARITH` (R192). -/
def Config.lpfArith : LpfArith where
  zero := Config.lpfZero
  unpack := Config.lpfUnpack
  mul := Config.lpfMul
  add := Config.lpfAdd
  pack := Config.lpfPack

/-- `COEF`: the coefficients of the eight filtered rates; 8000 Hz has no entry (R193; 10_state.md R31; UB8). Free value,
notes/assumptions/2.md. -/
opaque Config.coef : FiltRate → Coef

/-- The byte a decimation leaves at a buffer index of a freed window: "each byte a draw" (43_iir_lp_decimator.md R219;
UB5). The first argument is the draw counter of the state, so that no two commands share a draw. Free value,
notes/assumptions/4.md. -/
opaque Config.freedByte : Nat → Nat → Byte

/-- The byte of a buffer that nothing has written since reset: "any value until the host writes them" (10_state.md R35;
UB6). Free value, notes/assumptions/5.md. -/
opaque Config.resetByte : Space → Nat → Byte

end Sys2Proof
end

