-- ==== Sys2Proof/Machine/State.lean ====
section
/-! DEFINITION. Sys2Proof/Machine/State.lean: the machine's state as plain data (10_state.md), the reasons a step can
stop, and the state after reset (10_state.md R35, 70_reset_and_hazards.md R291). -/

namespace Sys2Proof.Machine

/-- The written bytes of a buffer: (index, byte), indexes strictly rising (`Memory.wf`). An index that is not listed holds
no written byte; a read of it yields the free value `Config.resetByte` (UB6). -/
abbrev Memory := List Host.Cell

/-- One of the two buffers (10_state.md R33). `size` is the real size of the buffer the host supplied, in bytes
(70_reset_and_hazards.md R293, R296); `cells` is its written contents. -/
structure Buffer where
  size : Word
  cells : Memory
deriving DecidableEq, Repr

/-- One action of the host between commands (00_scope.md R6, 30_encoding.md R92, R93, 44_encode_sequencer.md R243). -/
inductive HostAction where
  /-- Write control register `n` (10_state.md R26); a write of register 0 is a launch (R27). -/
  | writeReg (n : Fin 6) (v : Word)
  /-- Read control register `n` (10_state.md R26). -/
  | readReg (n : Fin 6)
  /-- `IN <- b0 b1 …`: store the bytes to `IN[0..]` and write their number to `IN_LEN` (30_encoding.md R92). -/
  | storeIn (bytes : List Byte)
  /-- `OUT <- b0 b1 …`: store the bytes to `OUT[0..]`; does not write `OUT_LEN` (30_encoding.md R92). -/
  | storeOut (bytes : List Byte)
  /-- Store one byte to a buffer (44_encode_sequencer.md R243). -/
  | storeByte (sp : Space) (a : Nat) (b : Byte)
  /-- Read one byte of a buffer (`IN?`, `OUT?`, 30_encoding.md R92). -/
  | loadByte (sp : Space) (a : Nat)
  /-- Supply a buffer of `size` bytes (70_reset_and_hazards.md R293: "all buffers are caller-supplied"). -/
  | supply (sp : Space) (size : Word)
  /-- `COPYBACK`: copy `OUT[0 .. COUNT-1]` to `IN[0 .. COUNT-1]` and write `COUNT` to `IN_LEN` (30_encoding.md R93). -/
  | copyBack
deriving DecidableEq, Repr

/-- The state: the control and status registers (R26), the two buffers (R33), the transient registers (R22, R24), the
window sequences that pass between the stages of `RESAMPLE` (43_iir_lp_decimator.md R209), and three fields of the
model's own (the draw counter, the host's pending actions, the value of the host's last read). -/
structure State where
  /-- `CW`, register 0 (R27). -/
  cw : Word
  /-- `IN_LEN`, register 1 (R30). -/
  inLen : Word
  /-- `OUT_LEN`, register 2 (R30). -/
  outLen : Word
  /-- `STATUS`, register 3 (R28). -/
  status : Word
  /-- `COUNT`, register 4 (R29). -/
  count : Word
  /-- The buffer `IN` (R33). -/
  input : Buffer
  /-- The buffer `OUT` (R33). -/
  output : Buffer
  /-- `WIN[0..7]`, the current window, `WIN[0]` the lowest buffer index (R22). -/
  win : Vector Byte 8
  /-- `SAMPLE` (R22). -/
  sample : Sample
  /-- `CODE` (R22). -/
  code : Byte
  /-- `Y1`, the filter output at the previous position (R22). -/
  y1 : LpfT
  /-- `Y2`, the filter output two positions back (R22). -/
  y2 : LpfT
  /-- `POS`, the window pointer (R24). -/
  pos : Word
  /-- `xw[0 .. N-1]`, the windows read from `IN` (43_iir_lp_decimator.md R209). -/
  xw : List Window
  /-- `yw[0 .. N-1]`, the filtered windows (R194, R209). -/
  yw : List Window
  /-- `ow[0 .. K-1]`, the kept windows (R207, R209). -/
  ow : List Window
  /-- The model's own: how many draws of freed windows have been made (R219). -/
  draws : Nat
  /-- The model's own: the host's actions not yet performed, the next one first (R6). -/
  pending : List HostAction
  /-- The model's own: the value the host's last read returned (R26, R92). -/
  hostData : Word
deriving DecidableEq, Repr

/-- Why the machine stops with a fault. None is a state of the hardware: "they mark where this spec stops"
(60_exceptions.md R264). All are safe: the hardware goes on in a way the spec does not describe, and the model gives no
next state. -/
inductive Fault where
  /-- Raised by `ENCODE` of a one-byte format at the first store with no room (44_encode_sequencer.md R237); `stored` is
  `OUT[0 .. OUT_LEN-1]`, the stores that had happened. Safe. -/
  | outputOverrun (stored : List Byte)
  /-- Raised by `RESAMPLE` with `INPLACE = 0` and `OUT_LEN` different from `IN_LEN` (43_iir_lp_decimator.md R220). Safe. -/
  | resampleSizeMismatch
  /-- Raised by `ENCODE` and `RESAMPLE` started with `IN_LEN` or `OUT_LEN` above the real size of the buffer
  (60_exceptions.md R264, 70_reset_and_hazards.md R296). Safe. -/
  | bufferLengthUntrue
  /-- Raised by a host action that names a byte beyond the buffer the host supplied (00_scope.md R11). Safe. -/
  | hostBeyondBuffer
deriving DecidableEq, Repr

/-- Why an instruction has no meaning. -/
inductive Refusal where
  /-- Raised by an arm of `exec` that has no meaning yet. Safe. -/
  | notModelled (mnemonic : String)
  /-- Raised by a write of `CW` with a word that spells no command; `CW` holds the word, nothing else changes
  (30_encoding.md R90, 60_exceptions.md R264). Safe. -/
  | reservedEncoding (cw : Word) (why : Reject)
  /-- Raised by `RESAMPLE` run under the spec's reference arithmetic, with a float format at a filtered rate
  (43_iir_lp_decimator.md R197). The hardware's own `RESAMPLE` never raises it. Safe. -/
  | floatUnderRefArith
deriving DecidableEq, Repr

/-- A buffer at reset: nothing written. The spec gives no real size. DESIGN CHOICE: the largest a length register can
name, until the host supplies another (notes/assumptions/6.md). Unsafe. -/
def Buffer.reset : Buffer := ⟨0xFFFFFFFF#32, []⟩

/-- The machine right after reset (10_state.md R35; 70_reset_and_hazards.md R291): every register 0, `CW = 0` which spells
`NOP`, the filter registers `LPF_ARITH.zero`, the buffers unspecified. The stage sequences are empty, no draw has been
made, the host has nothing pending and has read nothing (DESIGN CHOICE, notes/assumptions/7.md). -/
def State.reset : State where
  cw := 0#32
  inLen := 0#32
  outLen := 0#32
  status := 0#32
  count := 0#32
  input := Buffer.reset
  output := Buffer.reset
  win := #v[0#8, 0#8, 0#8, 0#8, 0#8, 0#8, 0#8, 0#8]
  sample := 0#16
  code := 0#8
  y1 := Config.lpfZero
  y2 := Config.lpfZero
  pos := 0#32
  xw := []
  yw := []
  ow := []
  draws := 0
  pending := []
  hostData := 0#32

end Sys2Proof.Machine
end

