-- ==== Sys2Proof/Machine/Flags.lean ====
section
/-! DEFINITION. Sys2Proof/Machine/Flags.lean: the fields of `STATUS` (10_state.md R28). "These are the only status flags
of the block"; no micro-operation has a flag as a side effect, so `STATUS` is written whole, by the start of a command,
by its end and by the one exception, and by nothing else. -/

namespace Sys2Proof.Machine

/-- `STATUS` with the given fields, reserved bits 0: bit 0 `DONE`, bit 1 `ERR`, bits 7:4 `ERRCODE` (R28). -/
def statusWord (done err : Bool) (errCode : BitVec 4) : Word :=
  0#24 ++ errCode ++ 0#2 ++ BitVec.ofBool err ++ BitVec.ofBool done

/-- `STATUS.DONE`, bit 0 (R28). -/
def statusDone (w : Word) : Bool := w.getLsbD 0
/-- `STATUS.ERR`, bit 1 (R28). -/
def statusErr (w : Word) : Bool := w.getLsbD 1
/-- `STATUS.ERRCODE`, bits 7:4 (R28). -/
def statusErrCode (w : Word) : BitVec 4 := w.extractLsb' 4 4

/-- What the start of a command leaves: 0 (44_encode_sequencer.md R231, 43_iir_lp_decimator.md R210). -/
def statusStarted : Word := statusWord false false 0#4

/-- What the end of a command without error leaves: 0x01 (R239, R218). -/
def statusFinished : Word := statusWord true false 0#4

/-- What `raise OutputBufferTooSmall` leaves: 0x13, `ERRCODE` 1 (60_exceptions.md R261, R262). -/
def statusTooSmall : Word := statusWord true true 1#4

end Sys2Proof.Machine
end

