-- ==== Sys2Proof/Machine/Operands.lean ====
section
/-! DEFINITION. Sys2Proof/Machine/Operands.lean: operand forms. How a window is assembled into a number and read as
signed, unsigned or IEEE float (00_scope.md R9, R10, R12; 30_encoding.md R87, R88; 40_sample_decoder.md R130), and the
magnitude both companders take of a sample (41_mulaw_compander.md R151, 42_alaw_compander.md R171). -/

namespace Sys2Proof.Machine

/-- `le_n(w) = Σ w[i] * 256^i` (R12). -/
def leNat : Window → Nat
  | [] => 0
  | b :: bs => b.toNat + 256 * leNat bs

/-- `be_n(w) = Σ w[i] * 256^(n-1-i)` (R12). -/
def beNat (w : Window) : Nat := leNat w.reverse

/-- `raw(LE, w)` (R12, R50). -/
def rawNat (le : Bool) (w : Window) : Nat := if le then leNat w else beNat w

/-- `bytes_le_n(p)` (R12). -/
def leBytes : Nat → Nat → Window
  | 0, _ => []
  | n + 1, p => BitVec.ofNat 8 p :: leBytes n (p / 256)

/-- `bytes_be_n(p)` (R12). -/
def beBytes (n p : Nat) : Window := (leBytes n p).reverse

/-- The `n`-byte sequence of a number in a byte order (R12). -/
def rawBytes (le : Bool) (n p : Nat) : Window := if le then leBytes n p else beBytes n p

/-- `sext_N(p)`: the two's complement value of an `N`-bit pattern (R9, R10). -/
def sext (n p : Nat) : Int := if p < 2 ^ (n - 1) then (p : Int) else (p : Int) - 2 ^ n

/-- `clamp(v, lo, hi) = max(lo, min(hi, v))` (R10). -/
def clampInt (v lo hi : Int) : Int := max lo (min hi v)

/-- `round_half_away(q)` (R10). -/
def roundHalfAway (q : Rat) : Int :=
  if 0 ≤ q then (q + 1 / 2).floor else -((-q + 1 / 2).floor)

/-- The value of an IEEE pattern (40_sample_decoder.md R130). -/
inductive FloatVal where
  | fin (r : Rat)
  | inf (neg : Bool)
  | nan
deriving DecidableEq, Repr

/-- `m * 2^e`, an exact rational (R130). -/
def scaleRat (m : Nat) (e : Int) : Rat :=
  if 0 ≤ e then ((m * 2 ^ e.toNat : Nat) : Rat) else mkRat m (2 ^ (-e).toNat)

/-- `ieee(p, E, F)` (R130): the value of a pattern of `1 + E + F` bits, subnormals at their exact value. -/
def ieee (p E F : Nat) : FloatVal :=
  let neg : Bool := p / 2 ^ (E + F) % 2 == 1
  let e := p / 2 ^ F % 2 ^ E
  let f := p % 2 ^ F
  let bias : Int := 2 ^ (E - 1) - 1
  let signed (r : Rat) : Rat := if neg then -r else r
  if e = 0 then .fin (signed (scaleRat f (1 - bias - F)))
  else if e = 2 ^ E - 1 then (if f = 0 then .inf neg else .nan)
  else .fin (signed (scaleRat (2 ^ F + f) (e - bias - F)))

/-- The value of a float window: binary32 for a four-byte one, binary64 for an eight-byte one (R88, R126 to R129). -/
def floatValue (f : Fmt) (w : Window) : FloatVal :=
  if f.bw = 8 then ieee (rawNat f.le w) 11 52 else ieee (rawNat f.le w) 8 23

/-- The magnitude the companders take: the one's complement `-x - 1` of a negative sample, the sample itself
otherwise; 0..32767 (R151, R171). -/
def magnitude (x : Sample) : Nat := if x.toInt < 0 then (-x.toInt - 1).toNat else x.toInt.toNat

end Sys2Proof.Machine
end

