-- ==== Sys2Proof/Machine/Ops.lean ====
section
/-! DEFINITION. Sys2Proof/Machine/Ops.lean: the named operations over memory and registers: the byte memory in its
canonical form, loads and stores of the two buffers (00_scope.md R11), the start and the end of a command, the taking of
the one exception, window fetch, and the stores of the two commands. -/

namespace Sys2Proof.Machine

/-! ## The byte memory -/

/-- The canonical form: indexes strictly rising. No listed entry can equal what an unlisted index holds, since an unlisted
index holds no written byte at all. -/
abbrev Memory.wf (m : Memory) : Prop := m.Pairwise (fun c d => c.1 < d.1)

/-- The byte written at an index, if any. -/
def Memory.lookup : Memory → Nat → Option Byte
  | [], _ => none
  | (x, c) :: m, a => if a = x then some c else Memory.lookup m a

/-- The memory with a byte written at an index. -/
def Memory.insert : Memory → Nat → Byte → Memory
  | [], a, b => [(a, b)]
  | (x, c) :: m, a, b =>
    if a < x then (a, b) :: (x, c) :: m
    else if a = x then (a, b) :: m
    else (x, c) :: Memory.insert m a b

/-- The memory with a byte sequence written from an index on. -/
def Memory.insertBytes (m : Memory) (a : Nat) : List Byte → Memory
  | [] => m
  | b :: bs => Memory.insertBytes (m.insert a b) (a + 1) bs

/-- The memory with the windows `ws`, each of `bw` bytes, written at the window indexes `k, k+1, …`. -/
def Memory.insertWindows (m : Memory) (bw k : Nat) : List Window → Memory
  | [] => m
  | w :: ws => Memory.insertWindows (m.insertBytes (k * bw) w) bw (k + 1) ws

/-- The written bytes below an index. -/
def Memory.below (m : Memory) (n : Nat) : Memory := m.filter (fun c => c.1 < n)

/-! ## Loads and stores of the buffers (R11, R33, R242) -/

/-- The buffer of a space (R33). -/
def State.buffer (s : State) : Space → Buffer
  | .input => s.input
  | .output => s.output

/-- The state with the buffer of a space replaced. The two spaces are distinct storage (R33). -/
def State.setBuffer (s : State) (sp : Space) (b : Buffer) : State :=
  match sp with
  | .input => { s with input := b }
  | .output => { s with output := b }

/-- Byte `a` of a buffer: the byte last written there, else the free value of R35 (UB6). Reading has no side effect
(20_memory.md R59). -/
def State.readByte (s : State) (sp : Space) (a : Nat) : Byte :=
  ((s.buffer sp).cells.lookup a).getD (Config.resetByte sp a)

/-- `MemRead(B, a, n)`: the `n` bytes `B[a .. a+n-1]` in increasing index order (R11). -/
def State.readBytes (s : State) (sp : Space) (a n : Nat) : Window :=
  (List.range n).map (fun i => s.readByte sp (a + i))

/-- The state with other written contents in a buffer; its real size is kept. -/
def State.setCells (s : State) (sp : Space) (m : Memory) : State := s.setBuffer sp ⟨(s.buffer sp).size, m⟩

/-- Store one byte. -/
def State.writeByte (s : State) (sp : Space) (a : Nat) (b : Byte) : State :=
  s.setCells sp ((s.buffer sp).cells.insert a b)

/-- `MemWrite(B, a, n, w)`: store the byte sequence `w` from index `a` (R11). -/
def State.writeBytes (s : State) (sp : Space) (a : Nat) (bs : List Byte) : State :=
  s.setCells sp ((s.buffer sp).cells.insertBytes a bs)

/-! ## The life of a command -/

/-- The start of `ENCODE` and of `RESAMPLE`: `STATUS`, `COUNT` and every transient register are cleared
(44_encode_sequencer.md R231, 43_iir_lp_decimator.md R210, 70_reset_and_hazards.md R291, R292). R231 does not list `Y1`, `Y2`
and R210 does not list `SAMPLE`, `CODE`; R291 and R266 clear all of them at either start (DEDUCED, notes/assumptions/8.md). -/
def State.start (A : LpfArith) (s : State) : State :=
  { s with
    status := statusStarted, count := 0#32, pos := 0#32,
    win := #v[0#8, 0#8, 0#8, 0#8, 0#8, 0#8, 0#8, 0#8], sample := 0#16, code := 0#8,
    y1 := A.zero, y2 := A.zero, xw := [], yw := [], ow := [] }

/-- The host's duty of R296: neither length register exceeds the real size of its buffer. -/
def State.lengthsTrue (s : State) : Bool := s.inLen ≤ s.input.size && s.outLen ≤ s.output.size

/-- Taking the one exception, `raise OutputBufferTooSmall` (60_exceptions.md R262): `STATUS` becomes 0x13, and nothing
else changes; `COUNT` and the transient registers are as the start left them. "Control goes nowhere: there is no
handler, vector table, saved program counter, mode change, mask or stack". The return from it is the return of the `CW`
write to the host: "There is no return-from-trap operation: nothing was entered" (R267). -/
def State.raiseOutputBufferTooSmall (s : State) : State := { s with status := statusTooSmall }

/-- The end of a command without error: `STATUS <- 0x01` (R239, R218). -/
def State.finish (s : State) : State := { s with status := statusFinished }

/-! ## The window registers (R22, R24) -/

/-- `WIN` with the bytes of a window at its front; the bytes beyond the window are kept (R233, R211). -/
def mergeWin (v : Vector Byte 8) (w : Window) : Vector Byte 8 :=
  #v[w.getD 0 v[0], w.getD 1 v[1], w.getD 2 v[2], w.getD 3 v[3],
     w.getD 4 v[4], w.getD 5 v[5], w.getD 6 v[6], w.getD 7 v[7]]

/-- `WIN[0 .. bw-1]` (R110). -/
def State.window (s : State) (bw : Nat) : Window := s.win.toList.take bw

/-- Window fetch of `ENCODE`: `WIN[i] <- IN[POS + i]` for `i` in `0 .. bw-1` (R233). -/
def State.fetchWindow (s : State) (bw : Nat) : State :=
  { s with win := mergeWin s.win (s.readBytes .input s.pos.toNat bw) }

/-- The number of windows, `N = IN_LEN div bw` (20_memory.md R54). -/
def State.windowCount (s : State) (bw : Nat) : Nat := s.inLen.toNat / bw

/-- Window fetch of `RESAMPLE`, all `N` windows: window `m` is read at `m * bw` into `WIN`, then `POS` advances (R211). `WIN`
ends as the last window left it and `POS` as `N * bw`. -/
def State.fetchWindows (s : State) (bw : Nat) : State :=
  let ws := (List.range (s.windowCount bw)).map (fun m => s.readBytes .input (m * bw) bw)
  { s with
    xw := ws, pos := BitVec.ofNat 32 (s.windowCount bw * bw),
    win := match ws.getLast? with
      | none => s.win
      | some w => mergeWin s.win w }

/-! ## The datapath registers -/

/-- `SAMPLE <- v` (R22). -/
def State.setSample (s : State) (v : Sample) : State := { s with sample := v }

/-- `CODE <- c` (R22). -/
def State.setCode (s : State) (c : Byte) : State := { s with code := c }

/-- The store of `ENCODE`: `OUT[COUNT] <- CODE`, then `COUNT` rises by 1 and `POS` by `bw` (R235, R242). -/
def State.storeCode (s : State) (bw : Nat) : State :=
  { s.writeByte .output s.count.toNat s.code with count := s.count + 1#32, pos := s.pos + BitVec.ofNat 32 bw }

/-! ## The stores of `RESAMPLE` -/

/-- Store the windows `ws` at the window indexes `k, k+1, …` of a buffer (R214). -/
def State.storeWindows (s : State) (sp : Space) (bw k : Nat) (ws : List Window) : State :=
  s.setCells sp ((s.buffer sp).cells.insertWindows bw k ws)

/-- The windows `k .. n-1` the decimation frees: each byte a draw (R219); the draw counter advances. -/
def State.freeWindows (s : State) (sp : Space) (bw k n : Nat) : State :=
  { s.writeBytes sp (k * bw) ((List.range ((n - k) * bw)).map (fun i => Config.freedByte s.draws (k * bw + i))) with
    draws := s.draws + 1 }

end Sys2Proof.Machine
end

