-- ==== Sys2Proof/Machine/Resampler.lean ====
section
/-! DEFINITION. Sys2Proof/Machine/Resampler.lean: the unit `iir_lp_decimator` (43_iir_lp_decimator.md): the nine
micro-operations `LPF.*`, `DECIM`, and the command `RESAMPLE`. The arithmetic and the coefficients are arguments of the
shared operations (R192, R193); the meanings take the open ones of Config. -/

namespace Sys2Proof.Machine

/-! ## The filter stage -/

/-- The value `y[m]` of a position `m ≥ 3` (R194): `b0·x[m]` plus the `i = 1` term plus the `i = 2` term, in the order of
additions written there. -/
def lpfNext (A : LpfArith) (c : Coef) (f : Fmt) (y1 y2 : LpfT) (w : Window) : LpfT :=
  let t1 := A.add (A.mul c.a1 y1) (A.mul c.b1 y1)
  let t2 := A.add (A.mul c.a2 y1) (A.mul c.b2 y2)
  A.add (A.add (A.mul c.b0 (A.unpack f w)) t1) t2

/-- The loop of R194 from position `m` on, over the windows left: the output windows, and `Y1`, `Y2` at the end. The
positions below 3 yield zero and `bw` zero bytes (R195). -/
def lpfLoop (A : LpfArith) (c : Coef) (f : Fmt) : Nat → LpfT → LpfT → List Window → List Window × LpfT × LpfT
  | _, y1, y2, [] => ([], y1, y2)
  | m, y1, y2, w :: ws =>
    let y := if m < 3 then A.zero else lpfNext A c f y1 y2 w
    let out := if m < 3 then List.replicate f.bw 0#8 else (A.pack f y).toList
    let rest := lpfLoop A c f (m + 1) y y1 ws
    (out :: rest.1, rest.2)

/-- `LPF.<rate>`: `yw <- lpf(COEF[rate], F, xw)` with `Y1`, `Y2` set to zero first (R194, R199 to R206); at 8000 Hz the
windows pass bit for bit and nothing is computed (R198). -/
def State.runLpf (A : LpfArith) (C : FiltRate → Coef) (s : State) (r : Rate) (f : Fmt) : State :=
  match r with
  | .r8000 => { s with yw := s.xw }
  | .filt q =>
    let out := lpfLoop A (C q) f 0 A.zero A.zero s.xw
    { s with yw := out.1, y1 := out.2.1, y2 := out.2.2 }

/-! ## The decimate stage -/

/-- The stride `S = max(1, Hz(RATE) div Hz(TARGET))` (R207). -/
def stride (r t : Rate) : Nat := max 1 (r.hz / t.hz)

/-- The number of samples kept, `K = 0` for `N = 0`, else `(N - 1) div S + 1` (R207). -/
def keptCount (S N : Nat) : Nat := if N = 0 then 0 else (N - 1) / S + 1

/-- `ow[k] = yw[k * S]` for `k = 0 .. K-1` (R207). -/
def keepEvery (S : Nat) (yw : List Window) : List Window :=
  (List.range (keptCount S yw.length)).map (fun k => yw.getD (k * S) [])

/-- `DECIM`: `ow` is the kept windows, packed to the front (R207). -/
def State.runDecim (s : State) (r t : Rate) : State := { s with ow := keepEvery (stride r t) s.yw }

/-! ## The command -/

/-- The destination of `RESAMPLE` (R209, R216). -/
def resampleDst (inplace : Bool) : Space := if inplace then .input else .output

/-- The stores and the end of `RESAMPLE` (R209): the kept windows to the front of the destination (R214), the freed
windows drawn (R219), `COUNT <- K * bw` (R217), `STATUS <- 0x01` (R218). -/
def State.storeKept (s : State) (f : Fmt) (sp : Space) : State :=
  let stored := (s.storeWindows sp f.bw 0 s.ow).freeWindows sp f.bw s.ow.length (s.windowCount f.bw)
  { stored with count := BitVec.ofNat 32 (s.ow.length * f.bw) }

/-- `RESAMPLE` under an arithmetic and a coefficient table (R209). The order is that of 60_exceptions.md R266: the start,
the model's faults, the walk. A launch with untrue lengths faults whichever the destination (R264). -/
def resampleWith (A : LpfArith) (C : FiltRate → Coef) (f : Fmt) (r t : Rate) (inplace : Bool) (s : State) :
    Host.Outcome State Fault Refusal :=
  let s0 := s.start A
  if !s0.lengthsTrue then .fault .bufferLengthUntrue
  else if !inplace && s0.outLen != s0.inLen then .fault .resampleSizeMismatch
  else
    let filtered := (s0.fetchWindows f.bw).runLpf A C r f
    .next (((filtered.runDecim r t).storeKept f (resampleDst inplace)).finish)

/-! ## The meanings -/

/-- `LPF.8000` (R198). -/
def execLpf8000 (f : Fmt) (s : State) : Host.Outcome State Fault Refusal :=
  .next (s.runLpf Config.lpfArith Config.coef .r8000 f)
/-- `LPF.11025` (R199). -/
def execLpf11025 (f : Fmt) (s : State) : Host.Outcome State Fault Refusal :=
  .next (s.runLpf Config.lpfArith Config.coef (.filt .r11025) f)
/-- `LPF.16000` (R200). -/
def execLpf16000 (f : Fmt) (s : State) : Host.Outcome State Fault Refusal :=
  .next (s.runLpf Config.lpfArith Config.coef (.filt .r16000) f)
/-- `LPF.22050` (R201). -/
def execLpf22050 (f : Fmt) (s : State) : Host.Outcome State Fault Refusal :=
  .next (s.runLpf Config.lpfArith Config.coef (.filt .r22050) f)
/-- `LPF.32000` (R202). -/
def execLpf32000 (f : Fmt) (s : State) : Host.Outcome State Fault Refusal :=
  .next (s.runLpf Config.lpfArith Config.coef (.filt .r32000) f)
/-- `LPF.44100` (R203). -/
def execLpf44100 (f : Fmt) (s : State) : Host.Outcome State Fault Refusal :=
  .next (s.runLpf Config.lpfArith Config.coef (.filt .r44100) f)
/-- `LPF.48000` (R204). -/
def execLpf48000 (f : Fmt) (s : State) : Host.Outcome State Fault Refusal :=
  .next (s.runLpf Config.lpfArith Config.coef (.filt .r48000) f)
/-- `LPF.96000` (R205). -/
def execLpf96000 (f : Fmt) (s : State) : Host.Outcome State Fault Refusal :=
  .next (s.runLpf Config.lpfArith Config.coef (.filt .r96000) f)
/-- `LPF.192000` (R206). -/
def execLpf192000 (f : Fmt) (s : State) : Host.Outcome State Fault Refusal :=
  .next (s.runLpf Config.lpfArith Config.coef (.filt .r192000) f)

/-- `DECIM` (R207). -/
def execDecim (r t : Rate) (s : State) : Host.Outcome State Fault Refusal := .next (s.runDecim r t)

/-- `RESAMPLE` (R209), with the open arithmetic and coefficients. `LAW` is ignored (30_encoding.md R81). -/
def execResample (f : Fmt) (r t : Rate) (inplace : Bool) (s : State) : Host.Outcome State Fault Refusal :=
  resampleWith Config.lpfArith Config.coef f r t inplace s

end Sys2Proof.Machine
end

