-- ==== Sys2Proof/Machine/Companders.lean ====
section
/-! DEFINITION. Sys2Proof/Machine/Companders.lean: the units `mulaw_compander` (41_mulaw_compander.md) and `alaw_compander`
(42_alaw_compander.md). Each maps `SAMPLE` to `CODE`, reads and writes nothing else, and is total (R150, R170). -/

namespace Sys2Proof.Machine

/-! ## μ-law -/

/-- Steps 1 and 2 (R151, R152): the magnitude shifted right by 2, biased by 33, clipped to 0x1FFF; 33..8191. -/
def mulawClipmag (x : Sample) : Nat := min (magnitude x >>> 2 + 33) 0x1FFF

/-- The loop of step 3 (R153): while `i` is not 0, `segno` rises by 1 and `i` is shifted right by 1. It turns at most 7
times (R241); the first argument counts the turns left. -/
def mulawSegmentLoop : Nat → Nat → Nat → Nat
  | 0, _, segno => segno
  | turns + 1, i, segno => if i = 0 then segno else mulawSegmentLoop turns (i >>> 1) (segno + 1)

/-- Step 3 (R153): the first shift is by 6, `segno` starts at 1; 1..8. -/
def mulawSegment (mag3 : Nat) : Nat := mulawSegmentLoop 7 (mag3 >>> 6) 1

/-- `CMP.MULAW` of a sample (R150): steps 4 and 5 (R154, R155) compose the byte. -/
def mulawCode (x : Sample) : Byte :=
  let mag3 := mulawClipmag x
  let segno := mulawSegment mag3
  let highNibble := 8 - segno
  let lowNibble := 0xF - ((mag3 >>> segno) &&& 0xF)
  let c := (highNibble <<< 4) ||| lowNibble
  BitVec.ofNat 8 (if 0 ≤ x.toInt then c ||| 0x80 else c)

/-! ## A-law -/

/-- Step 1 (R171): the magnitude shifted right by 4; 0..2047. -/
def alawMagnitude (x : Sample) : Nat := magnitude x >>> 4

/-- The loop of step 2 (R172): while `ix > 31` it is halved and `exp_pos` rises by 1. It turns at most 6 times (R241); the
first argument counts the turns left. The result is `(ix, exp_pos)`. -/
def alawSegmentLoop : Nat → Nat → Nat → Nat × Nat
  | 0, ix, expPos => (ix, expPos)
  | turns + 1, ix, expPos => if 31 < ix then alawSegmentLoop turns (ix >>> 1) (expPos + 1) else (ix, expPos)

/-- Step 2 (R172): `aseg(ix)`; 0..127. -/
def alawSegment (ix : Nat) : Nat :=
  if 15 < ix then
    let r := alawSegmentLoop 6 ix 1
    r.1 - 16 + (r.2 <<< 4)
  else ix

/-- `CMP.ALAW` of a sample (R170): the sign (R173) and the line code (R174). -/
def alawCode (x : Sample) : Byte :=
  let v := alawSegment (alawMagnitude x)
  BitVec.ofNat 8 ((if 0 ≤ x.toInt then v ||| 0x80 else v) ^^^ 0x55)

/-! ## The meanings -/

/-- The compander of a law (44_encode_sequencer.md R234). -/
def compand : Law → Sample → Byte
  | .mulaw => mulawCode
  | .alaw => alawCode

/-- `CMP.<law>`: `CODE <- compand(SAMPLE)` (R150, R170). -/
def State.runCmp (s : State) (l : Law) : State := s.setCode (compand l s.sample)

/-- `CMP.MULAW` (R150). -/
def execCmpMulaw (s : State) : Host.Outcome State Fault Refusal := .next (s.runCmp .mulaw)

/-- `CMP.ALAW` (R170). -/
def execCmpAlaw (s : State) : Host.Outcome State Fault Refusal := .next (s.runCmp .alaw)

end Sys2Proof.Machine
end

