-- ==== Sys2Proof/Machine/SampleDecoder.lean ====
section
/-! DEFINITION. Sys2Proof/Machine/SampleDecoder.lean: the unit `pcm_format_decoder`, the 18 micro-operations `DEC.*`
(40_sample_decoder.md). Each reads `WIN[0 .. bw-1]` and writes `SAMPLE`, nothing else (R110). The arithmetic is exact, in ℤ
or ℚ, and narrowed once at the end. -/

namespace Sys2Proof.Machine

/-! ## The samples -/

/-- R112: `sext_8(p) * 256`. -/
def sampleS8 (w : Window) : Sample := BitVec.ofInt 16 (sext 8 (rawNat false w) * 256)
/-- R113: `(p - 128) * 256`. -/
def sampleU8 (w : Window) : Sample := BitVec.ofInt 16 (((rawNat false w : Int) - 128) * 256)
/-- R114: `sext_16(p)`. -/
def sampleS16be (w : Window) : Sample := BitVec.ofInt 16 (sext 16 (rawNat false w))
/-- R115: `sext_16(p)`. -/
def sampleS16le (w : Window) : Sample := BitVec.ofInt 16 (sext 16 (rawNat true w))
/-- R116: `p - 32768`. -/
def sampleU16be (w : Window) : Sample := BitVec.ofInt 16 ((rawNat false w : Int) - 32768)
/-- R117: `p - 32768`. -/
def sampleU16le (w : Window) : Sample := BitVec.ofInt 16 ((rawNat true w : Int) - 32768)
/-- R118: `sext_24(p) >> 8`, the floor. -/
def sampleS24be (w : Window) : Sample := BitVec.ofInt 16 (sext 24 (rawNat false w) / 256)
/-- R119: `sext_24(p) >> 8`, the floor. -/
def sampleS24le (w : Window) : Sample := BitVec.ofInt 16 (sext 24 (rawNat true w) / 256)
/-- R120: `(p >> 8) - 32768`. -/
def sampleU24be (w : Window) : Sample := BitVec.ofInt 16 ((rawNat false w : Int) / 256 - 32768)
/-- R121: `(p >> 8) - 32768`. -/
def sampleU24le (w : Window) : Sample := BitVec.ofInt 16 ((rawNat true w : Int) / 256 - 32768)
/-- R122: `sext_32(p) >> 16`, the floor. -/
def sampleS32be (w : Window) : Sample := BitVec.ofInt 16 (sext 32 (rawNat false w) / 65536)
/-- R123: `sext_32(p) >> 16`, the floor. -/
def sampleS32le (w : Window) : Sample := BitVec.ofInt 16 (sext 32 (rawNat true w) / 65536)
/-- R124: `(p >> 16) - 32768`. -/
def sampleU32be (w : Window) : Sample := BitVec.ofInt 16 ((rawNat false w : Int) / 65536 - 32768)
/-- R125: `(p >> 16) - 32768`. -/
def sampleU32le (w : Window) : Sample := BitVec.ofInt 16 ((rawNat true w : Int) / 65536 - 32768)

/-- `f2s` (R131), with `NAN_SAMPLE` as an argument: the exact product by 32767, rounded half away from zero, clamped. -/
def floatToSample (nan : Sample) : FloatVal → Sample
  | .nan => nan
  | .inf false => BitVec.ofInt 16 32767
  | .inf true => BitVec.ofInt 16 (-32768)
  | .fin r => BitVec.ofInt 16 (clampInt (roundHalfAway (r * 32767)) (-32768) 32767)

/-- R126: `f2s(ieee(be_4(w), 8, 23))`. -/
def sampleF32be (w : Window) : Sample := floatToSample Config.nanSample (ieee (rawNat false w) 8 23)
/-- R127: `f2s(ieee(le_4(w), 8, 23))`. -/
def sampleF32le (w : Window) : Sample := floatToSample Config.nanSample (ieee (rawNat true w) 8 23)
/-- R128: `f2s(ieee(be_8(w), 11, 52))`. -/
def sampleF64be (w : Window) : Sample := floatToSample Config.nanSample (ieee (rawNat false w) 11 52)
/-- R129: `f2s(ieee(le_8(w), 11, 52))`. -/
def sampleF64le (w : Window) : Sample := floatToSample Config.nanSample (ieee (rawNat true w) 11 52)

/-- `decode(format, window) -> i16` (R110). -/
def decodeSample : Fmt → Window → Sample
  | .s8 => sampleS8
  | .u8 => sampleU8
  | .s16be => sampleS16be
  | .s16le => sampleS16le
  | .u16be => sampleU16be
  | .u16le => sampleU16le
  | .s24be => sampleS24be
  | .s24le => sampleS24le
  | .u24be => sampleU24be
  | .u24le => sampleU24le
  | .s32be => sampleS32be
  | .s32le => sampleS32le
  | .u32be => sampleU32be
  | .u32le => sampleU32le
  | .f32be => sampleF32be
  | .f32le => sampleF32le
  | .f64be => sampleF64be
  | .f64le => sampleF64le

/-- `DEC.<fmt>`: `SAMPLE <- decode(fmt, WIN[0 .. bw-1])` (R110). -/
def State.runDec (s : State) (f : Fmt) : State := s.setSample (decodeSample f (s.window f.bw))

/-! ## The meanings -/

/-- `DEC.S8` (R112). -/
def execDecS8 (s : State) : Host.Outcome State Fault Refusal := .next (s.runDec .s8)
/-- `DEC.U8` (R113). -/
def execDecU8 (s : State) : Host.Outcome State Fault Refusal := .next (s.runDec .u8)
/-- `DEC.S16BE` (R114). -/
def execDecS16be (s : State) : Host.Outcome State Fault Refusal := .next (s.runDec .s16be)
/-- `DEC.S16LE` (R115). -/
def execDecS16le (s : State) : Host.Outcome State Fault Refusal := .next (s.runDec .s16le)
/-- `DEC.U16BE` (R116). -/
def execDecU16be (s : State) : Host.Outcome State Fault Refusal := .next (s.runDec .u16be)
/-- `DEC.U16LE` (R117). -/
def execDecU16le (s : State) : Host.Outcome State Fault Refusal := .next (s.runDec .u16le)
/-- `DEC.S24BE` (R118). -/
def execDecS24be (s : State) : Host.Outcome State Fault Refusal := .next (s.runDec .s24be)
/-- `DEC.S24LE` (R119). -/
def execDecS24le (s : State) : Host.Outcome State Fault Refusal := .next (s.runDec .s24le)
/-- `DEC.U24BE` (R120). -/
def execDecU24be (s : State) : Host.Outcome State Fault Refusal := .next (s.runDec .u24be)
/-- `DEC.U24LE` (R121). -/
def execDecU24le (s : State) : Host.Outcome State Fault Refusal := .next (s.runDec .u24le)
/-- `DEC.S32BE` (R122). -/
def execDecS32be (s : State) : Host.Outcome State Fault Refusal := .next (s.runDec .s32be)
/-- `DEC.S32LE` (R123). -/
def execDecS32le (s : State) : Host.Outcome State Fault Refusal := .next (s.runDec .s32le)
/-- `DEC.U32BE` (R124). -/
def execDecU32be (s : State) : Host.Outcome State Fault Refusal := .next (s.runDec .u32be)
/-- `DEC.U32LE` (R125). -/
def execDecU32le (s : State) : Host.Outcome State Fault Refusal := .next (s.runDec .u32le)
/-- `DEC.F32BE` (R126). -/
def execDecF32be (s : State) : Host.Outcome State Fault Refusal := .next (s.runDec .f32be)
/-- `DEC.F32LE` (R127). -/
def execDecF32le (s : State) : Host.Outcome State Fault Refusal := .next (s.runDec .f32le)
/-- `DEC.F64BE` (R128). -/
def execDecF64be (s : State) : Host.Outcome State Fault Refusal := .next (s.runDec .f64be)
/-- `DEC.F64LE` (R129). -/
def execDecF64le (s : State) : Host.Outcome State Fault Refusal := .next (s.runDec .f64le)

end Sys2Proof.Machine
end

