-- ==== Sys2Proof/Machine/Sequencer.lean ====
section
/-! DEFINITION. Sys2Proof/Machine/Sequencer.lean: the sequencer's commands `ENCODE` and `NOP` (44_encode_sequencer.md). -/

namespace Sys2Proof.Machine

/-- One turn of the walk up to its store: fetch, `DEC.<FMT>`, `CMP.<LAW>` (R233, R234). -/
def State.encodeWindow (s : State) (l : Law) (f : Fmt) : State := ((s.fetchWindow f.bw).runDec f).runCmp l

/-- The walk of `ENCODE` (R230) with the given number of windows left: each window is fetched, decoded and companded, the
store faults where `OUT` has no room (R237), and `STATUS` becomes 0x01 at the end (R239). -/
def encodeWalk (l : Law) (f : Fmt) : Nat → State → Host.Outcome State Fault Refusal
  | 0, s => .next s.finish
  | n + 1, s =>
    let coded := s.encodeWindow l f
    if coded.outLen ≤ coded.count then .fault (.outputOverrun (coded.readBytes .output 0 coded.count.toNat))
    else encodeWalk l f n (coded.storeCode f.bw)

/-- `ENCODE` (R230): the start (R231), the model's fault of untrue lengths (60_exceptions.md R264), the size check (R232),
the walk over `N = IN_LEN div bw` windows (R233). -/
def execEncode (l : Law) (f : Fmt) (s : State) : Host.Outcome State Fault Refusal :=
  let s0 := s.start Config.lpfArith
  if !s0.lengthsTrue then .fault .bufferLengthUntrue
  else if s0.outLen.toNat < s0.inLen.toNat / 2 then .next s0.raiseOutputBufferTooSmall
  else encodeWalk l f (s0.windowCount f.bw) s0

/-- `NOP` (R240): nothing changes; `STATUS` and `COUNT` keep the result of the last command. -/
def execNop (s : State) : Host.Outcome State Fault Refusal := .next s

end Sys2Proof.Machine
end

