-- ==== Sys2Proof/Machine/Dispatch.lean ====
section
/-! DEFINITION. Sys2Proof/Machine/Dispatch.lean: one arm per constructor of Instr, each a direct call of its meaning. -/

namespace Sys2Proof.Machine

-- The ignored bits of a command word have no effect (30_encoding.md R81, R91): no arm passes them on.
def exec (i : Instr) (s : State) : Host.Outcome State Fault Refusal :=
  match i with
  | .nop _ => Sys2Proof.Machine.execNop s
  | .encode law fmt _ => Sys2Proof.Machine.execEncode law fmt s
  | .resample fmt rate target inplace _ => Sys2Proof.Machine.execResample fmt rate target inplace s
  | .decS8 => Sys2Proof.Machine.execDecS8 s
  | .decU8 => Sys2Proof.Machine.execDecU8 s
  | .decS16be => Sys2Proof.Machine.execDecS16be s
  | .decS16le => Sys2Proof.Machine.execDecS16le s
  | .decU16be => Sys2Proof.Machine.execDecU16be s
  | .decU16le => Sys2Proof.Machine.execDecU16le s
  | .decS24be => Sys2Proof.Machine.execDecS24be s
  | .decS24le => Sys2Proof.Machine.execDecS24le s
  | .decU24be => Sys2Proof.Machine.execDecU24be s
  | .decU24le => Sys2Proof.Machine.execDecU24le s
  | .decS32be => Sys2Proof.Machine.execDecS32be s
  | .decS32le => Sys2Proof.Machine.execDecS32le s
  | .decU32be => Sys2Proof.Machine.execDecU32be s
  | .decU32le => Sys2Proof.Machine.execDecU32le s
  | .decF32be => Sys2Proof.Machine.execDecF32be s
  | .decF32le => Sys2Proof.Machine.execDecF32le s
  | .decF64be => Sys2Proof.Machine.execDecF64be s
  | .decF64le => Sys2Proof.Machine.execDecF64le s
  | .cmpMulaw => Sys2Proof.Machine.execCmpMulaw s
  | .cmpAlaw => Sys2Proof.Machine.execCmpAlaw s
  | .lpf8000 fmt => Sys2Proof.Machine.execLpf8000 fmt s
  | .lpf11025 fmt => Sys2Proof.Machine.execLpf11025 fmt s
  | .lpf16000 fmt => Sys2Proof.Machine.execLpf16000 fmt s
  | .lpf22050 fmt => Sys2Proof.Machine.execLpf22050 fmt s
  | .lpf32000 fmt => Sys2Proof.Machine.execLpf32000 fmt s
  | .lpf44100 fmt => Sys2Proof.Machine.execLpf44100 fmt s
  | .lpf48000 fmt => Sys2Proof.Machine.execLpf48000 fmt s
  | .lpf96000 fmt => Sys2Proof.Machine.execLpf96000 fmt s
  | .lpf192000 fmt => Sys2Proof.Machine.execLpf192000 fmt s
  | .decim rate target => Sys2Proof.Machine.execDecim rate target s

end Sys2Proof.Machine
end

