-- ==== Sys2Proof/Machine/HostPort.lean ====
section
/-! DEFINITION. Sys2Proof/Machine/HostPort.lean: the host's actions between commands: the six control registers by number
(10_state.md R26, R27), the launch of a command, and the host's access to the buffers (30_encoding.md R92, R93;
44_encode_sequencer.md R243). -/

namespace Sys2Proof.Machine

/-! ## The control registers (R26) -/

/-- A read of control register `n` (R26): register 5 reads as 0. Reading has no side effect. -/
def State.readReg (s : State) (n : Fin 6) : Word :=
  match n with
  | 0 => s.cw
  | 1 => s.inLen
  | 2 => s.outLen
  | 3 => s.status
  | 4 => s.count
  | 5 => 0#32

/-- A write of `CW` (R27; 60_exceptions.md R266): the word is stored, then the command it spells is executed; a word that
spells no command is refused, and nothing but `CW` has changed (30_encoding.md R90). -/
def launch (v : Word) (s : State) : Host.Outcome State Fault Refusal :=
  match decode v with
  | .ok i => exec i { s with cw := v }
  | .error why => .refused (.reservedEncoding v why)

/-- A write of control register `n` (R26): "A write to a read-only register is ignored", and so is one of register 5. -/
def writeReg (n : Fin 6) (v : Word) (s : State) : Host.Outcome State Fault Refusal :=
  match n with
  | 0 => launch v s
  | 1 => .next { s with inLen := v }
  | 2 => .next { s with outLen := v }
  | 3 => .next s
  | 4 => .next s
  | 5 => .next s

/-! ## The buffers -/

/-- The host stores a byte sequence at the front of a buffer it supplied. -/
def hostStore (sp : Space) (bytes : List Byte) (s : State) : Host.Outcome State Fault Refusal :=
  if bytes.length ≤ (s.buffer sp).size.toNat then .next (s.writeBytes sp 0 bytes)
  else .fault .hostBeyondBuffer

/-- `IN <- b0 b1 …` (30_encoding.md R92): the bytes go to `IN[0..]` and their number to `IN_LEN`. -/
def hostStoreIn (bytes : List Byte) (s : State) : Host.Outcome State Fault Refusal :=
  hostStore .input bytes { s with inLen := BitVec.ofNat 32 bytes.length }

/-- `OUT <- b0 b1 …` (30_encoding.md R92): the bytes go to `OUT[0..]`; `OUT_LEN` is not written. -/
def hostStoreOut (bytes : List Byte) (s : State) : Host.Outcome State Fault Refusal :=
  hostStore .output bytes s

/-- The host stores one byte of a buffer it supplied (R243). -/
def hostStoreByte (sp : Space) (a : Nat) (b : Byte) (s : State) : Host.Outcome State Fault Refusal :=
  if a < (s.buffer sp).size.toNat then .next (s.writeByte sp a b) else .fault .hostBeyondBuffer

/-- The host reads one byte of a buffer it supplied (`IN?`, `OUT?`, R92). -/
def hostLoadByte (sp : Space) (a : Nat) (s : State) : Host.Outcome State Fault Refusal :=
  if a < (s.buffer sp).size.toNat then .next { s with hostData := (s.readByte sp a).setWidth 32 }
  else .fault .hostBeyondBuffer

/-- The host supplies a buffer of another real size (70_reset_and_hazards.md R293). DESIGN CHOICE: what was written below
the new size is kept (notes/assumptions/6.md). -/
def hostSupply (sp : Space) (size : Word) (s : State) : Host.Outcome State Fault Refusal :=
  .next (s.setBuffer sp ⟨size, (s.buffer sp).cells.below size.toNat⟩)

/-- `COPYBACK` (30_encoding.md R93): `OUT[0 .. COUNT-1]` is copied to `IN[0 .. COUNT-1]`, `COUNT` is written to `IN_LEN`. -/
def hostCopyBack (s : State) : Host.Outcome State Fault Refusal :=
  if s.count ≤ s.output.size then hostStoreIn (s.readBytes .output 0 s.count.toNat) s
  else .fault .hostBeyondBuffer

/-- What one action of the host does (R6). -/
def hostAct (a : HostAction) (s : State) : Host.Outcome State Fault Refusal :=
  match a with
  | .writeReg n v => writeReg n v s
  | .readReg n => .next { s with hostData := s.readReg n }
  | .storeIn bytes => hostStoreIn bytes s
  | .storeOut bytes => hostStoreOut bytes s
  | .storeByte sp a b => hostStoreByte sp a b s
  | .loadByte sp a => hostLoadByte sp a s
  | .supply sp size => hostSupply sp size s
  | .copyBack => hostCopyBack s

/-- The next action of the host, or nothing: with no action pending the block does nothing and keeps all its state
(60_exceptions.md R274, 70_reset_and_hazards.md R290). -/
def runPending (s : State) : Host.Outcome State Fault Refusal :=
  match s.pending with
  | [] => .next s
  | a :: rest => hostAct a { s with pending := rest }

/-- `s` with a write of `CW` with the word `v` as the host's next action. -/
def State.withLaunch (s : State) (v : Word) : State := { s with pending := .writeReg 0 v :: s.pending }

end Sys2Proof.Machine
end

