-- ==== Sys2Proof/Machine/Step.lean ====
section
/-! DEFINITION. Sys2Proof/Machine/Step.lean: one step of the machine: the host's next action, and with a write of `CW` the
whole command, which is one atomic transition (00_scope.md R5, R6; 20_memory.md R58, R63). -/

namespace Sys2Proof.Machine

/-- One step (R5, R6). -/
def step (s : State) : Host.Outcome State Fault Refusal := runPending s

/-- `s` with the table word `w` of `nbits` bits as the command word the host writes next. The block fetches nothing
(20_memory.md R67): a command runs because the host writes it (notes/assumptions/7.md). -/
def State.withFetchWord (s : State) (nbits w : Nat) : State := s.withLaunch (tableWord nbits w)

end Sys2Proof.Machine
end

