-- ==== Sys2Proof/Machine/RefArith.lean ====
section
/-! DEFINITION. Sys2Proof/Machine/RefArith.lean: the spec's reference arithmetic `REF_ARITH` and test coefficients
`TEST_COEF` (43_iir_lp_decimator.md R197). "They are the spec's own and are not the hardware's": no meaning uses them; they
run the spec's worked examples (R208, R221). -/

namespace Sys2Proof.Machine

/-- `unpack` of `REF_ARITH` (R197): the native value of a window, no bias removed. A float pattern with no finite value
has none; 0 stands there and is never reached, since `resampleRef` refuses float formats. -/
def refUnpack (f : Fmt) (w : Window) : LpfT :=
  match f.kind with
  | .signed => (sext (8 * f.bw) (rawNat f.le w) : Int)
  | .unsigned => (rawNat f.le w : Nat)
  | .float =>
    match floatValue f w with
    | .fin r => r
    | .inf _ => 0
    | .nan => 0

/-- The number `pack` of `REF_ARITH` stores (R197): rounded half away from zero, clamped to the native range. -/
def refPackInt (f : Fmt) (v : LpfT) : Int :=
  match f.kind with
  | .unsigned => clampInt (roundHalfAway v) 0 (2 ^ (8 * f.bw) - 1)
  | _ => clampInt (roundHalfAway v) (-2 ^ (8 * f.bw - 1)) (2 ^ (8 * f.bw - 1) - 1)

/-- `pack` of `REF_ARITH` (R197): the pattern of that number as bytes in the format's byte order. -/
def refPack (f : Fmt) (v : LpfT) : Window :=
  rawBytes f.le f.bw (refPackInt f v % 2 ^ (8 * f.bw)).toNat

/-- The byte sequence `leBytes n p` has `n` bytes. -/
theorem leBytes_length : ∀ n p, (leBytes n p).length = n
  | 0, _ => rfl
  | n + 1, p => by simp [leBytes, leBytes_length n]

/-- A byte sequence in either byte order has `n` bytes. -/
theorem rawBytes_length (le : Bool) (n p : Nat) : (rawBytes le n p).length = n := by
  cases le <;> simp [rawBytes, beBytes, leBytes_length]

/-- `REF_ARITH` (R197). -/
def refArith : LpfArith where
  zero := 0
  unpack := refUnpack
  mul x y := x * y
  add x y := x + y
  pack f v := ⟨(refPack f v).toArray, by simp [refPack, rawBytes_length]⟩

/-- `TEST_COEF` (R197): the same five values for every rate code 1..8. -/
def testCoef : FiltRate → Coef := fun _ => ⟨1 / 8, -1 / 4, 1 / 2, 1 / 4, -1 / 8⟩

/-- `RESAMPLE` under `REF_ARITH` and `TEST_COEF`: "a model that uses it refuses `RESAMPLE` of a float format at a rate other
than 8000 Hz" (R197; 93_implementation_defined.md UB9). -/
def resampleRef (f : Fmt) (r t : Rate) (inplace : Bool) (s : State) : Host.Outcome State Fault Refusal :=
  if f.kind = .float ∧ r ≠ .r8000 then .refused .floatUnderRefArith
  else resampleWith refArith testCoef f r t inplace s

end Sys2Proof.Machine
end

