-- ==== Sys2Proof/Safety.lean ====
section
/-! DEFINITION. Sys2Proof/Safety.lean: what counts as a safe launch and a safe state, and what it means that an
instruction leaves something alone, in the terms the statements use. -/

namespace Sys2Proof.Machine

/-! ## Launches the spec describes (44_encode_sequencer.md R243) -/

/-- The conditions on the state alone under which `ENCODE` runs to its end without error: true lengths (R296), room by the
block's own check (R232), and for a one-byte format the room the host owes (70_reset_and_hazards.md R298). -/
abbrev State.encodeReady (s : State) (f : Fmt) : Prop :=
  s.lengthsTrue = true ∧ s.inLen.toNat / 2 ≤ s.outLen.toNat ∧ (f.bw = 1 → s.inLen.toNat ≤ s.outLen.toNat)

/-- The conditions on the state alone under which `RESAMPLE` runs to its end: true lengths (R296), and with `INPLACE = 0`
an output exactly as large as the input (R297). -/
abbrev State.resampleReady (s : State) (inplace : Bool) : Prop :=
  s.lengthsTrue = true ∧ (inplace = false → s.outLen = s.inLen)

/-! ## The invariant of the state -/

/-- The values `STATUS` ever holds (10_state.md R28), and `COUNT` beside them: 0 before any command and after the error
(R29, R262). -/
abbrev State.statusLegal (s : State) : Prop :=
  (s.status = 0x00#32 ∧ s.count = 0#32) ∨ s.status = 0x01#32 ∨ (s.status = 0x13#32 ∧ s.count = 0#32)

/-- The written contents of a buffer are in canonical form and lie inside the buffer the host supplied. -/
abbrev Buffer.sound (b : Buffer) : Prop := b.cells.wf ∧ ∀ e ∈ b.cells, e.1 < b.size.toNat

/-- The invariant every step keeps: both buffers are sound, and `STATUS` and `COUNT` are legal. -/
abbrev StateInv (s : State) : Prop := s.input.sound ∧ s.output.sound ∧ s.statusLegal

/-! ## What is left alone -/

/-- The registers the host writes and the model's host side are unchanged: `CW`, `IN_LEN`, `OUT_LEN`, the real sizes of the
buffers, the pending host actions and the value of the host's last read. -/
abbrev keepsHostSide (s t : State) : Prop :=
  t.cw = s.cw ∧ t.inLen = s.inLen ∧ t.outLen = s.outLen ∧ t.input.size = s.input.size ∧ t.output.size = s.output.size ∧
    t.pending = s.pending ∧ t.hostData = s.hostData

/-- Every byte of a buffer reads as before. -/
abbrev keepsBytes (sp : Space) (s t : State) : Prop := ∀ a, t.readByte sp a = s.readByte sp a

/-- Two outcomes are the same but for the word in `CW`. -/
def sameButCw : Host.Outcome State Fault Refusal → Host.Outcome State Fault Refusal → Prop
  | .next s, .next t => { s with cw := t.cw } = t
  | .fault a, .fault b => a = b
  | .refused (.reservedEncoding _ a), .refused (.reservedEncoding _ b) => a = b
  | _, _ => False

/-! ## Values the statements name -/

/-- The byte `ENCODE` makes of window `k` of `IN` (44_encode_sequencer.md R234). -/
def State.codeOfWindow (s : State) (l : Law) (f : Fmt) (k : Nat) : Byte :=
  compand l (decodeSample f (s.readBytes .input (k * f.bw) f.bw))

/-- The windows of `IN` (20_memory.md R54). -/
def State.inputWindows (s : State) (f : Fmt) : List Window :=
  (List.range (s.windowCount f.bw)).map (fun m => s.readBytes .input (m * f.bw) f.bw)

end Sys2Proof.Machine
end

