-- ==== Sys2Proof/Certificates/Slice0/Obligations.lean ====
section
/-! DEFINITION. Sys2Proof/Certificates/Slice0/Obligations.lean: the statements for the provers. Each docstring names the
rules of spec/ it formalises; a statement that rests on a choice of the model says so and names its log entry. -/

open Sys2Proof Sys2Proof.Machine

/-! ## Reset, the host's registers, the step -/

/-- R35: after reset every register of the spec is 0, the filter registers are `LPF_ARITH.zero`, and the buffers hold
nothing but unspecified bytes (in the model's form, the free value of notes/assumptions/5.md). -/
def Obligations.ResetLeavesTheSpecsValues : Prop :=
  State.reset.cw = 0#32 ∧ State.reset.inLen = 0#32 ∧ State.reset.outLen = 0#32 ∧ State.reset.status = 0#32 ∧
  State.reset.count = 0#32 ∧ (∀ i : Fin 8, State.reset.win[i] = 0#8) ∧ State.reset.sample = 0#16 ∧
  State.reset.code = 0#8 ∧ State.reset.pos = 0#32 ∧ State.reset.y1 = Config.lpfArith.zero ∧
  State.reset.y2 = Config.lpfArith.zero ∧ decode State.reset.cw = .ok (.nop 0#16) ∧
  ∀ sp a, State.reset.readByte sp a = Config.resetByte sp a

/-- The invariant `StateInv` (canonical memories inside their buffers, legal `STATUS` and `COUNT`: R28, R29) holds at reset. -/
def Obligations.ResetSatisfiesTheInvariant : Prop := StateInv State.reset

/-- Every step keeps `StateInv`, whatever the host does: the canonical form of both memories (the model's), every written byte
inside its buffer (R61), and the only values `STATUS` ever holds, with `COUNT` 0 beside 0x00 and 0x13 (R28, R29). -/
def Obligations.StepKeepsTheInvariant : Prop := ∀ s t : State, StateInv s → step s = .next t → StateInv t

/-- A step runs the decoded instruction (R27, R5): when the host's next action writes `CW` with a word that spells the
command `i`, the step is `exec i` at the state with that word in `CW` and the action taken from the host's queue (the
queue is the model's, notes/assumptions/7.md). The same word placed by `withFetchWord` runs so from any state. -/
def Obligations.StepRunsTheDecodedCommand : Prop :=
  (∀ (s : State) (v : Word) (rest : List HostAction) (i : Instr), s.pending = .writeReg 0 v :: rest → decode v = .ok i →
    step s = exec i { s with pending := rest, cw := v }) ∧
  (∀ (s : State) (nbits w : Nat) (i : Instr), decodeTableWord nbits w = some i →
    step (s.withFetchWord nbits w) = exec i { s with cw := tableWord nbits w })

/-- R26: the six registers by number: what each reads as, what a write of each does, and that each reads 0 after reset. The
field `hostData` that receives the value read and the queue the actions come from are the model's
(notes/assumptions/7.md). -/
def Obligations.HostReadsAndWritesSixRegisters : Prop :=
  (∀ s : State, s.readReg 0 = s.cw ∧ s.readReg 1 = s.inLen ∧ s.readReg 2 = s.outLen ∧ s.readReg 3 = s.status ∧
    s.readReg 4 = s.count ∧ s.readReg 5 = 0#32) ∧
  (∀ n, State.reset.readReg n = 0#32) ∧
  (∀ (s : State) (rest : List HostAction) (n : Fin 6), s.pending = .readReg n :: rest →
    step s = .next { s with pending := rest, hostData := s.readReg n }) ∧
  (∀ (s : State) (rest : List HostAction) (n : Fin 6) (v : Word), s.pending = .writeReg n v :: rest →
    (n = 0 → step s = launch v { s with pending := rest }) ∧
    (n = 1 → step s = .next { s with pending := rest, inLen := v }) ∧
    (n = 2 → step s = .next { s with pending := rest, outLen := v }) ∧
    (3 ≤ n → step s = .next { s with pending := rest }))

/-- R274 and R290: with no action of the host pending the block does nothing and keeps all its state. -/
def Obligations.IdleStepKeepsTheState : Prop := ∀ s : State, s.pending = [] → step s = .next s

/-! ## The command word -/

/-- R94: the worked encodings, the refused ones with their reason, the accepted one with an ignored field. -/
def Obligations.WorkedEncodingsDecode : Prop :=
  decode 0x00000000#32 = .ok (.nop 0#16) ∧
  decode 0x00000011#32 = .ok (.encode .mulaw .s16be 0#9) ∧
  decode 0x00000015#32 = .ok (.encode .alaw .s16be 0#9) ∧
  decode 0x00000019#32 = .ok (.encode .mulaw .s16le 0#9) ∧
  decode 0x0000001D#32 = .ok (.encode .alaw .s16le 0#9) ∧
  decode 0x00000085#32 = .ok (.encode .alaw .u8 0#9) ∧
  decode 0x00000029#32 = .ok (.encode .mulaw .s24le 0#9) ∧
  decode 0x00000139#32 = .ok (.encode .mulaw .f32le 0#9) ∧
  decode 0x00000175#32 = .ok (.encode .alaw .f64be 0#9) ∧
  decode 0x0000041A#32 = .ok (.resample .s16le (.filt .r16000) .r8000 false 0#1) ∧
  decode 0x00020C1A#32 = .ok (.resample .s16le (.filt .r48000) .r8000 true 0#1) ∧
  decode 0x00000012#32 = .ok (.resample .s16be .r8000 .r8000 false 0#1) ∧
  decode 0x00002A1A#32 = .ok (.resample .s16le (.filt .r44100) (.filt .r11025) false 0#1) ∧
  decode 0x00000003#32 = .error .reservedCommand ∧
  decode 0x00000009#32 = .error .reservedFormat ∧
  decode 0x00000079#32 = .error .reservedFormat ∧
  (∃ ign, decode 0x00001E11#32 = .ok (.encode .mulaw .s16be ign)) ∧
  (∀ s : State, ∀ c : Word,
    sameButCw (launch 0x00001E11#32 { s with cw := c }) (launch 0x00000011#32 { s with cw := c }))

/-- Decode and encode agree: decoding the word of a well-formed instruction gives it back, every field at every value,
the ignored ones included (R80 to R86, R91). (That an instruction carries the ignored bits is the model's choice:
notes/assumptions/11.md.) -/
def Obligations.DecodeOfEncodeIsTheCommand : Prop :=
  ∀ i : Instr, i.wellFormed = true → decode (encode i) = .ok i

/-- The other direction: a word that decodes is the word of what it decodes to, and that is a command (R80, R81, R92). It
holds because `Instr` carries the bits of the fields a command ignores, which is the model's choice, not the spec's
(notes/assumptions/11.md): to the spec two words that differ in ignored fields only spell the same command (R81, R91; R94:
0x00001E11 is the same as 0x00000011), and that they act alike is `IgnoredFieldsDoNotMatter`. -/
def Obligations.EncodeOfDecodeIsTheWord : Prop :=
  ∀ (w : Word) (i : Instr), decode w = .ok i → encode i = w ∧ i.wellFormed = true

/-- R90: a word spells no command exactly when one of the four conditions holds, and its launch is refused under the word
and a reason. (A refusal has no next state, so that `CW` holds the word is said by the refusal itself: notes/assumptions/12.md; which
reason is named, and the host's queue, are the model's: notes/assumptions/10.md and 7.md.) -/
def Obligations.ReservedWordsAreExactlyRefused : Prop :=
  (∀ v : Word, (∃ e, decode v = .error e) ↔
    v.toNat / 2 ^ 18 ≠ 0 ∨ v.toNat % 4 = 3 ∨
    ((v.toNat % 4 = 1 ∨ v.toNat % 4 = 2) ∧ v.toNat / 8 % 64 ∉
      [0x00, 0x02, 0x03, 0x04, 0x05, 0x06, 0x07, 0x10, 0x12, 0x13, 0x14, 0x15, 0x16, 0x17, 0x26, 0x27, 0x2E, 0x2F]) ∨
    (v.toNat % 4 = 2 ∧ (8 < v.toNat / 512 % 16 ∨ 8 < v.toNat / 8192 % 16))) ∧
  (∀ (s : State) (v : Word) (rest : List HostAction) (e : Reject), s.pending = .writeReg 0 v :: rest →
    decode v = .error e → step s = .refused (.reservedEncoding v e))

/-- R81 and R91: launches of two words that agree on the fields their command reads differ in `CW` only. -/
def Obligations.IgnoredFieldsDoNotMatter : Prop :=
  ∀ (v v' : Word) (s : State), cwReserved v = 0#14 → cwReserved v' = 0#14 → cwCmd v = cwCmd v' →
    (cwCmd v = 1#2 → cwLaw v = cwLaw v' ∧ cwFmt v = cwFmt v') →
    (cwCmd v = 2#2 → cwFmt v = cwFmt v' ∧ cwRate v = cwRate v' ∧ cwTarget v = cwTarget v' ∧
      cwInplace v = cwInplace v') →
    sameButCw (launch v s) (launch v' s)

/-- R80 to R86, R92: the word the encoder writes for a micro-operation selects that micro-operation, and the well-formed
instructions are exactly the three commands. (Which command word stands for a micro-operation is the model's choice, and
that a micro-operation is no instruction a word spells its reading: notes/assumptions/11.md.) -/
def Obligations.EveryMicroOperationIsSelectedByItsWord : Prop :=
  (∀ i : Instr, i.wellFormed = false → i ∈ selectedMicroOps (encode i)) ∧
  (∀ i : Instr, i.wellFormed = true ↔
    (∃ ign, i = .nop ign) ∨ (∃ l f ign, i = .encode l f ign) ∨ (∃ f r t ip ign, i = .resample f r t ip ign))

/-- The commands run their micro-operations (R230, R209). With true lengths and a passed size check, `exec` of `ENCODE` is its
start and the walk over its `N = IN_LEN div bw` windows; a turn of the walk is a window fetch, `exec` of the `DEC.*` and of
the `CMP.*` its fields select, and the store where there is room, else the fault of R237; after the last turn `STATUS`
becomes 0x01. `exec` of `RESAMPLE` is its start, the window fetch, `exec` of the `LPF.*` its fields select and of `DECIM`,
and the stores. -/
def Obligations.CommandsRunTheirMicroOperations : Prop :=
  (∀ (l : Law) (f : Fmt) (ign : BitVec 9), (Instr.encode l f ign).microOps = [f.dec, l.cmp]) ∧
  (∀ (f : Fmt) (r t : Rate) (ip : Bool) (ign : BitVec 1),
    (Instr.resample f r t ip ign).microOps = [r.lpf f, .decim r t]) ∧
  (∀ (l : Law) (f : Fmt) (ign : BitVec 9) (s : State), s.lengthsTrue = true →
    s.inLen.toNat / 2 ≤ s.outLen.toNat →
    exec (.encode l f ign) s = encodeWalk l f (s.inLen.toNat / f.bw) (s.start Config.lpfArith)) ∧
  (∀ (l : Law) (f : Fmt) (n : Nat) (s : State), ∃ a b : State,
    exec f.dec (s.fetchWindow f.bw) = .next a ∧ exec l.cmp a = .next b ∧
    (b.count < b.outLen → encodeWalk l f (n + 1) s = encodeWalk l f n (b.storeCode f.bw)) ∧
    (b.outLen ≤ b.count →
      encodeWalk l f (n + 1) s = .fault (.outputOverrun (b.readBytes .output 0 b.count.toNat)))) ∧
  (∀ (l : Law) (f : Fmt) (s : State), encodeWalk l f 0 s = .next { s with status := 0x01#32 }) ∧
  (∀ (f : Fmt) (r t : Rate) (ip : Bool) (ign : BitVec 1) (s : State), s.resampleReady ip → ∃ a b : State,
    exec (r.lpf f) ((s.start Config.lpfArith).fetchWindows f.bw) = .next a ∧ exec (.decim r t) a = .next b ∧
    exec (.resample f r t ip ign) s = .next ((b.storeKept f (resampleDst ip)).finish))

/-! ## The sample decoder -/

/-- R112 and R113: `DEC.S8` and `DEC.U8` complete from every state, write `SAMPLE` only, and write the value the rules
give, in ℤ. -/
def Obligations.EightBitDecodersWriteTheirSample : Prop :=
  ∀ s : State, let b : Int := s.win[0].toNat
    (∃ t, exec .decS8 s = .next t ∧ t = { s with sample := t.sample } ∧
      t.sample.toInt = (if b < 128 then b else b - 256) * 256) ∧
    (∃ t, exec .decU8 s = .next t ∧ t = { s with sample := t.sample } ∧ t.sample.toInt = (b - 128) * 256)

/-- R114 to R117: the four 16-bit decoders. -/
def Obligations.SixteenBitDecodersWriteTheirSample : Prop :=
  ∀ s : State, let be : Int := s.win[0].toNat * 256 + s.win[1].toNat
    let le : Int := s.win[0].toNat + s.win[1].toNat * 256
    (∃ t, exec .decS16be s = .next t ∧ t = { s with sample := t.sample } ∧
      t.sample.toInt = if be < 32768 then be else be - 65536) ∧
    (∃ t, exec .decS16le s = .next t ∧ t = { s with sample := t.sample } ∧
      t.sample.toInt = if le < 32768 then le else le - 65536) ∧
    (∃ t, exec .decU16be s = .next t ∧ t = { s with sample := t.sample } ∧ t.sample.toInt = be - 32768) ∧
    (∃ t, exec .decU16le s = .next t ∧ t = { s with sample := t.sample } ∧ t.sample.toInt = le - 32768)

/-- R118 to R121: the four 24-bit decoders: the floor of the pattern's value by 256, which for a signed format is its top
16 bits read as a signed number. -/
def Obligations.TwentyFourBitDecodersWriteTheirSample : Prop :=
  ∀ s : State, let w0 : Int := s.win[0].toNat
    let w1 : Int := s.win[1].toNat
    let w2 : Int := s.win[2].toNat
    let be : Int := w0 * 65536 + w1 * 256 + w2
    let le : Int := w0 + w1 * 256 + w2 * 65536
    (∃ t, exec .decS24be s = .next t ∧ t = { s with sample := t.sample } ∧
      t.sample.toInt = ⌊((if be < 2 ^ 23 then be else be - 2 ^ 24 : Int) : Rat) / 256⌋ ∧
      t.sample.toNat = w0 * 256 + w1) ∧
    (∃ t, exec .decS24le s = .next t ∧ t = { s with sample := t.sample } ∧
      t.sample.toInt = ⌊((if le < 2 ^ 23 then le else le - 2 ^ 24 : Int) : Rat) / 256⌋ ∧
      t.sample.toNat = w2 * 256 + w1) ∧
    (∃ t, exec .decU24be s = .next t ∧ t = { s with sample := t.sample } ∧
      t.sample.toInt = ⌊(be : Rat) / 256⌋ - 32768 ∧ t.sample.toInt = w0 * 256 + w1 - 32768) ∧
    (∃ t, exec .decU24le s = .next t ∧ t = { s with sample := t.sample } ∧
      t.sample.toInt = ⌊(le : Rat) / 256⌋ - 32768 ∧ t.sample.toInt = w2 * 256 + w1 - 32768)

/-- R122 to R125: the four 32-bit integer decoders: the floor of the pattern's value by 65536. -/
def Obligations.ThirtyTwoBitDecodersWriteTheirSample : Prop :=
  ∀ s : State, let w0 : Int := s.win[0].toNat
    let w1 : Int := s.win[1].toNat
    let w2 : Int := s.win[2].toNat
    let w3 : Int := s.win[3].toNat
    let be : Int := w0 * 2 ^ 24 + w1 * 2 ^ 16 + w2 * 2 ^ 8 + w3
    let le : Int := w0 + w1 * 2 ^ 8 + w2 * 2 ^ 16 + w3 * 2 ^ 24
    (∃ t, exec .decS32be s = .next t ∧ t = { s with sample := t.sample } ∧
      t.sample.toInt = ⌊((if be < 2 ^ 31 then be else be - 2 ^ 32 : Int) : Rat) / 65536⌋ ∧
      t.sample.toNat = w0 * 256 + w1) ∧
    (∃ t, exec .decS32le s = .next t ∧ t = { s with sample := t.sample } ∧
      t.sample.toInt = ⌊((if le < 2 ^ 31 then le else le - 2 ^ 32 : Int) : Rat) / 65536⌋ ∧
      t.sample.toNat = w3 * 256 + w2) ∧
    (∃ t, exec .decU32be s = .next t ∧ t = { s with sample := t.sample } ∧
      t.sample.toInt = ⌊(be : Rat) / 65536⌋ - 32768 ∧ t.sample.toInt = w0 * 256 + w1 - 32768) ∧
    (∃ t, exec .decU32le s = .next t ∧ t = { s with sample := t.sample } ∧
      t.sample.toInt = ⌊(le : Rat) / 65536⌋ - 32768 ∧ t.sample.toInt = w3 * 256 + w2 - 32768)

/-- R126 to R129 with the definition of R131: the four float decoders complete from every state and write `SAMPLE` only. A
NaN gives `NAN_SAMPLE` (a free value, notes/assumptions/1.md), the infinities the bounds, and a finite value `r` the
integer nearest to the exact product `r * 32767`, ties away from zero, clamped. -/
def Obligations.FloatDecodersWriteTheirSample : Prop :=
  ∀ (s : State), ∀ p ∈ [(Instr.decF32be, Fmt.f32be), (Instr.decF32le, Fmt.f32le), (Instr.decF64be, Fmt.f64be),
      (Instr.decF64le, Fmt.f64le)],
    ∃ t, exec p.1 s = .next t ∧ t = { s with sample := t.sample } ∧
      (floatValue p.2 (s.window p.2.bw) = .nan → t.sample = Config.nanSample) ∧
      (floatValue p.2 (s.window p.2.bw) = .inf false → t.sample.toInt = 32767) ∧
      (floatValue p.2 (s.window p.2.bw) = .inf true → t.sample.toInt = -32768) ∧
      (∀ r : Rat, floatValue p.2 (s.window p.2.bw) = .fin r →
        (32767 ≤ r * 32767 → t.sample.toInt = 32767) ∧
        (r * 32767 ≤ -32767 - 1 / 2 → t.sample.toInt = -32768) ∧
        (0 ≤ r * 32767 → r * 32767 < 32767 →
          (t.sample.toInt : Rat) - 1 / 2 ≤ r * 32767 ∧ r * 32767 < (t.sample.toInt : Rat) + 1 / 2) ∧
        (r * 32767 < 0 → -32767 - 1 / 2 < r * 32767 →
          (t.sample.toInt : Rat) - 1 / 2 < r * 32767 ∧ r * 32767 ≤ (t.sample.toInt : Rat) + 1 / 2))

/-- R130: the value of an IEEE pattern with sign `s`, exponent `e` and fraction `f`, as a rational, and the pattern each
float format reads from its window (R12, R126 to R129). -/
def Obligations.IeeePatternsHaveTheirValue : Prop :=
  (∀ E F s e f : Nat, 2 ≤ E → s < 2 → e < 2 ^ E → f < 2 ^ F →
    let p := s * 2 ^ (E + F) + e * 2 ^ F + f
    let bias : Int := 2 ^ (E - 1) - 1
    (e = 0 → f = 0 → ieee p E F = .fin 0) ∧
    (e = 0 → f ≠ 0 → ieee p E F = .fin ((-1 : Rat) ^ s * f * (2 : Rat) ^ (1 - bias - F))) ∧
    (0 < e → e < 2 ^ E - 1 →
      ieee p E F = .fin ((-1 : Rat) ^ s * (2 ^ F + f) * (2 : Rat) ^ ((e : Int) - bias - F))) ∧
    (e = 2 ^ E - 1 → f = 0 → ieee p E F = .inf (s == 1)) ∧
    (e = 2 ^ E - 1 → f ≠ 0 → ieee p E F = .nan)) ∧
  (∀ a b c d : Byte,
    floatValue .f32be [a, b, c, d] = ieee (a.toNat * 2 ^ 24 + b.toNat * 2 ^ 16 + c.toNat * 2 ^ 8 + d.toNat) 8 23 ∧
    floatValue .f32le [d, c, b, a] = ieee (a.toNat * 2 ^ 24 + b.toNat * 2 ^ 16 + c.toNat * 2 ^ 8 + d.toNat) 8 23) ∧
  (∀ hi lo : Window, hi.length = 4 → lo.length = 4 →
    floatValue .f64be (hi ++ lo) = ieee (rawNat false hi * 2 ^ 32 + rawNat false lo) 11 52 ∧
    floatValue .f64le (lo ++ hi) = ieee (rawNat true hi * 2 ^ 32 + rawNat true lo) 11 52)

/-- R132: the byte-order pairs. Where the window of one state is the reverse of the other's, `DEC.<X>LE` and `DEC.<X>BE`
write the same sample. -/
def Obligations.ByteOrderPairsAgree : Prop :=
  ∀ p ∈ [(Fmt.s16be, Fmt.s16le), (.u16be, .u16le), (.s24be, .s24le), (.u24be, .u24le), (.s32be, .s32le),
      (.u32be, .u32le), (.f32be, .f32le), (.f64be, .f64le)],
    ∀ s s' : State, s'.window p.2.bw = (s.window p.1.bw).reverse →
      ∃ t t', exec p.1.dec s = .next t ∧ exec p.2.dec s' = .next t' ∧ t'.sample = t.sample

/-- R134: an unsigned format is the signed format with the top bit of the pattern flipped. -/
def Obligations.UnsignedIsSignedWithTheTopBitFlipped : Prop :=
  ∀ p ∈ [(Fmt.u8, Fmt.s8), (.u16be, .s16be), (.u16le, .s16le), (.u24be, .s24be), (.u24le, .s24le), (.u32be, .s32be),
      (.u32le, .s32le)],
    ∀ n < 2 ^ (8 * p.1.bw),
      decodeSample p.1 (rawBytes p.1.le p.1.bw n) = decodeSample p.2 (rawBytes p.2.le p.2.bw (n ^^^ 2 ^ (8 * p.1.bw - 1)))

/-- R133, its integer rows: the 8-bit formats produce exactly the 256 multiples of 256, the 16-, 24- and 32-bit integer
formats every sample. -/
def Obligations.IntegerDecodersHaveTheirRange : Prop :=
  (∀ f ∈ [Fmt.s8, .u8],
    (∀ w : Window, w.length = f.bw → ∃ k : Int, -128 ≤ k ∧ k ≤ 127 ∧ (decodeSample f w).toInt = 256 * k) ∧
    (∀ k : Int, -128 ≤ k → k ≤ 127 → ∃ w : Window, w.length = f.bw ∧ (decodeSample f w).toInt = 256 * k)) ∧
  (∀ f ∈ [Fmt.s16be, .s16le, .u16be, .u16le, .s24be, .s24le, .u24be, .u24le, .s32be, .s32le, .u32be, .u32le],
    ∀ x : Sample, ∃ w : Window, w.length = f.bw ∧ decodeSample f w = x)

/-! ## The companders -/

/-- R156: `CMP.MULAW` completes from every state, writes `CODE` only, and writes the byte of the closed form (with
`s = bitlen(m) - 5` given by its bounds), in both its forms; the symmetry; the dependence on the sign and `mag2` only. -/
def Obligations.MulawWritesTheClosedForm : Prop :=
  (∀ st : State, let x := st.sample.toInt
    let m : Int := min ((if 0 ≤ x then x else -x - 1) / 4 + 33) 8191
    ∃ t, ∃ s : Nat, exec .cmpMulaw st = .next t ∧ t = { st with code := t.code } ∧
      1 ≤ s ∧ s ≤ 8 ∧ 2 ^ (s + 4) ≤ m ∧ m < 2 ^ (s + 5) ∧
      (t.code.toNat : Int) = (if 0 ≤ x then 0x80 else 0) + (8 - s) * 16 + (15 - m / 2 ^ s % 16) ∧
      ((~~~t.code).toNat : Int) = (if 0 ≤ x then 0 else 0x80) + (s - 1) * 16 + m / 2 ^ s % 16) ∧
  (∀ x : Sample, compand .mulaw (~~~x) = compand .mulaw x ^^^ 0x80#8) ∧
  (∀ x y : Sample, (x.toInt < 0 ↔ y.toInt < 0) → magnitude x / 4 = magnitude y / 4 →
    compand .mulaw x = compand .mulaw y)

/-- R157: the rows of the table (sample, magnitude, biased magnitude, clipped magnitude, segment, byte), and that every
byte is produced. -/
def Obligations.MulawCornerCases : Prop :=
  (∀ p ∈ [((0 : Int), 0, 33, 33, 1, 0xFF#8), (-1, 0, 33, 33, 1, 0x7F#8), (3, 3, 33, 33, 1, 0xFF#8),
      (4, 4, 34, 34, 1, 0xFE#8), (123, 123, 63, 63, 1, 0xF0#8), (124, 124, 64, 64, 2, 0xEF#8),
      (32767, 32767, 8224, 8191, 8, 0x80#8), (-32768, 32767, 8224, 8191, 8, 0x00#8),
      (32635, 32635, 8191, 8191, 8, 0x80#8), (32636, 32636, 8192, 8191, 8, 0x80#8)],
    let x : Sample := BitVec.ofInt 16 p.1
    magnitude x = p.2.1 ∧ magnitude x / 4 + 33 = p.2.2.1 ∧ mulawClipmag x = p.2.2.2.1 ∧
    mulawSegment (mulawClipmag x) = p.2.2.2.2.1 ∧ compand .mulaw x = p.2.2.2.2.2) ∧
  (∀ c : Byte, ∃ x : Sample, compand .mulaw x = c)

/-- R158: within one sign a larger magnitude never gives a larger byte. -/
def Obligations.MulawIsMonotone : Prop :=
  (∀ x1 x2 : Sample, 0 ≤ x1.toInt → x1.toInt ≤ x2.toInt → compand .mulaw x2 ≤ compand .mulaw x1) ∧
  (∀ x1 x2 : Sample, x2.toInt ≤ x1.toInt → x1.toInt < 0 → compand .mulaw x2 ≤ compand .mulaw x1)

/-- R170 to R174 with the closed form of R172: `CMP.ALAW` completes from every state, writes `CODE` only, and writes
`v ^ 0x55` for the `v` of its segment table. -/
def Obligations.AlawWritesTheClosedForm : Prop :=
  ∀ st : State, let x := st.sample.toInt
    let ix : Int := (if x < 0 then -x - 1 else x) / 16
    ∃ t, ∃ v : Nat, exec .cmpAlaw st = .next t ∧ t = { st with code := t.code } ∧
      t.code = BitVec.ofNat 8 v ^^^ 0x55#8 ∧ v < 256 ∧ (128 ≤ v ↔ 0 ≤ x) ∧
      (ix ≤ 15 → (v % 128 : Int) = ix) ∧
      (15 < ix → ∃ e : Nat, 1 ≤ e ∧ e ≤ 7 ∧ 2 ^ (e + 3) ≤ ix ∧ ix < 2 ^ (e + 4) ∧
        (v % 128 : Int) = e * 16 + ix / 2 ^ (e - 1) % 16)

/-- R175: the symmetry of A-law, its dependence on the sign and `ix0` only, and that every byte is produced. -/
def Obligations.AlawSymmetryAndDependence : Prop :=
  (∀ x : Sample, 0 ≤ x.toInt → compand .alaw (BitVec.ofInt 16 (-x.toInt - 1)) = compand .alaw x ^^^ 0x80#8) ∧
  (∀ x y : Sample, (x.toInt < 0 ↔ y.toInt < 0) → alawMagnitude x = alawMagnitude y →
    compand .alaw x = compand .alaw y) ∧
  (∀ c : Byte, ∃ x : Sample, compand .alaw x = c)

/-- R176: the rows of the table (sample, `ix0`, exponent, `v` with sign, byte). -/
def Obligations.AlawCornerCases : Prop :=
  ∀ p ∈ [((0 : Int), 0, 0, 0x80#8, 0xD5#8), (-1, 0, 0, 0x00#8, 0x55#8), (15, 0, 0, 0x80#8, 0xD5#8),
      (16, 1, 0, 0x81#8, 0xD4#8), (255, 15, 0, 0x8F#8, 0xDA#8), (256, 16, 1, 0x90#8, 0xC5#8),
      (511, 31, 1, 0x9F#8, 0xCA#8), (512, 32, 2, 0xA0#8, 0xF5#8), (32767, 2047, 7, 0xFF#8, 0xAA#8),
      (-32768, 2047, 7, 0x7F#8, 0x2A#8)],
    let x : Sample := BitVec.ofInt 16 p.1
    alawMagnitude x = p.2.1 ∧ alawSegment (alawMagnitude x) / 16 = p.2.2.1 ∧
    compand .alaw x ^^^ 0x55#8 = p.2.2.2.1 ∧ compand .alaw x = p.2.2.2.2

/-- R177: before the line code the low seven bits never fall as the magnitude rises. -/
def Obligations.AlawIsMonotone : Prop :=
  ∀ x y : Sample, magnitude x ≤ magnitude y →
    (compand .alaw x ^^^ 0x55#8) &&& 0x7F#8 ≤ (compand .alaw y ^^^ 0x55#8) &&& 0x7F#8

/-! ## The filter and the decimator -/

/-- R198: `LPF.8000` passes the windows bit for bit, the first three included, and computes nothing. -/
def Obligations.FilterAtEightThousandPassesTheWindows : Prop :=
  ∀ (s : State) (f : Fmt), exec (.lpf8000 f) s = .next { s with yw := s.xw }

/-- R194 and R199 to R206: each of the eight filtered `LPF.*` completes from every state, writes `yw`, `Y1` and `Y2` only,
and its windows are the packed values of the recurrence, for the open arithmetic and the open coefficients of its rate
(free values, notes/assumptions/2.md and 3.md). -/
def Obligations.FilterFollowsTheRecurrence : Prop :=
  ∀ (s : State) (f : Fmt), ∀ p ∈ [(Instr.lpf11025 f, FiltRate.r11025), (.lpf16000 f, .r16000), (.lpf22050 f, .r22050),
      (.lpf32000 f, .r32000), (.lpf44100 f, .r44100), (.lpf48000 f, .r48000), (.lpf96000 f, .r96000),
      (.lpf192000 f, .r192000)],
    let A := Config.lpfArith
    let c := Config.coef p.2
    let N := s.xw.length
    ∃ t, ∃ y : Nat → LpfT, exec p.1 s = .next t ∧ t = { s with yw := t.yw, y1 := t.y1, y2 := t.y2 } ∧
      t.yw.length = N ∧ (∀ m < 3, y m = A.zero) ∧
      (∀ m, 3 ≤ m → m < N → y m =
        A.add (A.add (A.mul c.b0 (A.unpack f (s.xw.getD m []))) (A.add (A.mul c.a1 (y (m - 1))) (A.mul c.b1 (y (m - 1)))))
          (A.add (A.mul c.a2 (y (m - 1))) (A.mul c.b2 (y (m - 2))))) ∧
      (∀ m < N, t.yw[m]? = some (if m < 3 then List.replicate f.bw 0#8 else (A.pack f (y m)).toList)) ∧
      t.y1 = (if N = 0 then A.zero else y (N - 1)) ∧ t.y2 = (if N ≤ 1 then A.zero else y (N - 2))

/-- R195: at every filtered rate the first `min(3, N)` windows are zero bytes whatever the input, and the first three input
windows influence nothing at all. -/
def Obligations.FilterBoundaryIsZero : Prop :=
  ∀ (q : FiltRate) (f : Fmt) (s s' : State), s.xw.length = s'.xw.length → s.xw.drop 3 = s'.xw.drop 3 →
    ∃ t t', exec ((Rate.filt q).lpf f) s = .next t ∧ exec ((Rate.filt q).lpf f) s' = .next t' ∧
      (∀ m < 3, m < s.xw.length → t.yw[m]? = some (List.replicate f.bw 0#8)) ∧
      t'.yw = t.yw ∧ t'.y1 = t.y1 ∧ t'.y2 = t.y2

/-- R207: `DECIM` completes from every state and writes `ow` only: with the stride `S` and `K = ceil(N / S)` it keeps the
windows at `0, S, 2S, …`, packed to the front. -/
def Obligations.DecimationKeepsEveryStride : Prop :=
  ∀ (s : State) (r t : Rate), let S := max 1 (r.hz / t.hz)
    let N := s.yw.length
    let K := if N = 0 then 0 else (N - 1) / S + 1
    ∃ u, exec (.decim r t) s = .next u ∧ u = { s with ow := u.ow } ∧ u.ow.length = K ∧ K = (N + S - 1) / S ∧
      (∀ k < K, k * S < N ∧ u.ow[k]? = s.yw[k * S]?)

/-- R208: the strides of the table, and the worked filter example under `REF_ARITH` and `TEST_COEF`, the same at every
filtered rate. -/
def Obligations.StridesAndWorkedFilterExample : Prop :=
  ([Rate.r8000, .filt .r11025, .filt .r16000, .filt .r22050, .filt .r32000, .filt .r44100, .filt .r48000, .filt .r96000,
      .filt .r192000].map (fun r => (stride r .r8000, stride r (.filt .r16000), stride r (.filt .r48000))) =
    [(1, 1, 1), (1, 1, 1), (2, 1, 1), (2, 1, 1), (4, 2, 1), (5, 2, 1), (6, 3, 1), (12, 6, 2), (24, 12, 4)]) ∧
  ∀ q : FiltRate, (lpfLoop refArith (testCoef q) .s16le 0 refArith.zero refArith.zero
      [[0xE8#8, 0x03#8], [0xD0#8, 0x07#8], [0xB8#8, 0x0B#8], [0xA0#8, 0x0F#8], [0xA0#8, 0x0F#8], [0xA0#8, 0x0F#8],
       [0xC0#8, 0xE0#8], [0x64#8, 0x00#8]]) =
    ([[0x00#8, 0x00#8], [0x00#8, 0x00#8], [0x00#8, 0x00#8], [0xD0#8, 0x07#8], [0xCA#8, 0x08#8], [0xEF#8, 0x07#8],
      [0x45#8, 0xF0#8], [0x3D#8, 0xFD#8]], -707 - 32421875 / 100000000, -4027 - 34375 / 100000)

/-- R197: `pack` of `REF_ARITH` undoes its `unpack` on every window of every integer format; its use with a float format
at a filtered rate is refused. -/
def Obligations.ReferencePackUndoesUnpack : Prop :=
  (∀ (f : Fmt) (w : Window), f.kind ≠ .float → w.length = f.bw →
    (refArith.pack f (refArith.unpack f w)).toList = w) ∧
  (∀ (f : Fmt) (q : FiltRate) (t : Rate) (ip : Bool) (s : State), f.kind = .float →
    resampleRef f (.filt q) t ip s = .refused .floatUnderRefArith)

/-! ## RESAMPLE -/

/-- R209 with R207, R214, R217, R218: under the conditions on the state alone, `RESAMPLE` completes: `STATUS` is 0x01,
`COUNT` is `K * bw`, the kept windows of what its `LPF.*` makes of the windows of `IN` lie at the front of the destination,
every byte outside the `N` windows of the destination and the other buffer read as before, and the registers it does not
own are kept. Of the windows `K .. N-1` nothing is said: they are free (notes/assumptions/4.md). -/
def Obligations.ResampleStoresTheKeptWindows : Prop :=
  ∀ (f : Fmt) (r t : Rate) (ip : Bool) (ign : BitVec 1) (s : State), s.resampleReady ip →
    let dst := resampleDst ip
    let N := s.inLen.toNat / f.bw
    let S := max 1 (r.hz / t.hz)
    let K := (N + S - 1) / S
    ∃ u v : State, exec (.resample f r t ip ign) s = .next u ∧
      exec (r.lpf f) { s with xw := s.inputWindows f } = .next v ∧
      u.status = 0x01#32 ∧ u.count.toNat = K * f.bw ∧
      (∀ k < K, u.readBytes dst (k * f.bw) f.bw = v.yw.getD (k * S) []) ∧
      (∀ sp a, (sp ≠ dst ∨ N * f.bw ≤ a) → u.readByte sp a = s.readByte sp a) ∧
      keepsHostSide s u

/-- R198 and decision D24: at 8000 Hz the whole command is a copy, whatever the target rate. (That the draw counter advances
by one is the model's own, notes/assumptions/17.md.) -/
def Obligations.ResampleAtEightThousandCopies : Prop :=
  ∀ (f : Fmt) (t : Rate) (ip : Bool) (ign : BitVec 1) (s : State), s.resampleReady ip →
    ∃ u, exec (.resample f .r8000 t ip ign) s = .next u ∧ u.status = 0x01#32 ∧
      u.count.toNat = s.inLen.toNat / f.bw * f.bw ∧
      (∀ a < s.inLen.toNat / f.bw * f.bw, u.readByte (resampleDst ip) a = s.readByte .input a) ∧ u.draws = s.draws + 1

/-- R216: in place, the kept windows of `IN` are what those of `OUT` would be, `OUT` is untouched, and `OUT_LEN` is not looked
at (but for the model's fault of an untrue length, R264: notes/assumptions/9.md). -/
def Obligations.ResampleInPlaceAgrees : Prop :=
  (∀ (f : Fmt) (r t : Rate) (ign ign' : BitVec 1) (s : State), s.resampleReady false →
    ∃ u v : State, exec (.resample f r t false ign) s = .next u ∧ exec (.resample f r t true ign') s = .next v ∧
      v.count = u.count ∧ (∀ a < u.count.toNat, v.readByte .input a = u.readByte .output a) ∧
      keepsBytes .output s v) ∧
  (∀ (f : Fmt) (r t : Rate) (ign : BitVec 1) (s : State) (n : Word), s.resampleReady true → n ≤ s.output.size →
    ∃ u v : State, exec (.resample f r t true ign) s = .next u ∧
      exec (.resample f r t true ign) { s with outLen := n } = .next v ∧ v = { u with outLen := n })

/-- R220: with `INPLACE = 0` and true but different lengths, `RESAMPLE` faults and gives no next state. -/
def Obligations.ResampleOfUnequalSizesFaults : Prop :=
  ∀ (f : Fmt) (r t : Rate) (ign : BitVec 1) (s : State), s.lengthsTrue = true → s.outLen ≠ s.inLen →
    exec (.resample f r t false ign) s = .fault .resampleSizeMismatch

/-- R221: the worked example of the command, under `REF_ARITH` and `TEST_COEF`. (It starts from the reset state, whose buffers
have the real size the model chose: notes/assumptions/6.md.) -/
def Obligations.ResampleWorkedExample : Prop :=
  let inBytes : List Byte := [0xE8#8, 0x03#8, 0xD0#8, 0x07#8, 0xB8#8, 0x0B#8, 0xA0#8, 0x0F#8, 0xA0#8, 0x0F#8, 0xA0#8,
    0x0F#8, 0xC0#8, 0xE0#8, 0x64#8, 0x00#8, 0x7F#8]
  let s : State := { (State.reset.writeBytes .input 0 inBytes).writeBytes .output 0 (List.replicate 17 0xAA#8) with
    inLen := 17#32, outLen := 17#32 }
  decode 0x0000041A#32 = .ok (.resample .s16le (.filt .r16000) .r8000 false 0#1) ∧
  ∃ t, resampleRef .s16le (.filt .r16000) .r8000 false s = .next t ∧
    t.readBytes .output 0 8 = [0x00#8, 0x00#8, 0x00#8, 0x00#8, 0xCA#8, 0x08#8, 0x45#8, 0xF0#8] ∧
    t.readByte .output 16 = 0xAA#8 ∧ keepsBytes .input s t ∧ t.count = 8#32 ∧ t.status = 0x01#32

/-- R300: after a filtered `RESAMPLE` of an unsigned format the first kept sample decodes to -32768, not to silence. -/
def Obligations.FilteredUnsignedStartsAtFullScale : Prop :=
  ∀ (f : Fmt) (q : FiltRate) (t : Rate) (ip : Bool) (ign : BitVec 1) (s : State), f.kind = .unsigned →
    s.resampleReady ip → f.bw ≤ s.inLen.toNat →
    ∃ u, exec (.resample f (.filt q) t ip ign) s = .next u ∧
      (decodeSample f (u.readBytes (resampleDst ip) 0 f.bw)).toInt = -32768

/-! ## ENCODE, NOP and the exception -/

/-- R262 with R232 and R261: when `OUT_LEN < IN_LEN div 2`, `ENCODE` of every format ends at once with `STATUS` 0x13 (`DONE`,
`ERR`, `ERRCODE` 1), `COUNT` 0, every byte and every host register unchanged, and the transient registers as the start
left them. (The lengths are true: R264, the model's fault otherwise. That the start clears `Y1` and `Y2` too is read from
R291, since R231 does not list them: notes/assumptions/8.md. That the draw counter is kept is the model's own:
notes/assumptions/17.md.) -/
def Obligations.EncodeRaisesOutputBufferTooSmall : Prop :=
  ∀ (l : Law) (f : Fmt) (ign : BitVec 9) (s : State), s.lengthsTrue = true →
    s.outLen.toNat < s.inLen.toNat / 2 →
    ∃ t, exec (.encode l f ign) s = .next t ∧ t.status = 0x13#32 ∧ statusDone t.status = true ∧
      statusErr t.status = true ∧ statusErrCode t.status = 1#4 ∧ t.count = 0#32 ∧ t.output = s.output ∧
      t.input = s.input ∧ keepsHostSide s t ∧ t.pos = 0#32 ∧ (∀ i : Fin 8, t.win[i] = 0#8) ∧ t.sample = 0#16 ∧
      t.code = 0#8 ∧ t.y1 = Config.lpfArith.zero ∧ t.y2 = Config.lpfArith.zero ∧ t.draws = s.draws

/-- R234 with R233, R235 and R239: under the conditions on the state alone, `ENCODE` completes: `STATUS` is 0x01, `COUNT` is
`N = IN_LEN div bw`, `POS` has passed the windows, and every `OUT[k]` is the compander's byte of the decoder's sample of
window `k`; all else reads as before. (That the draw counter is kept is the model's own: notes/assumptions/17.md.) -/
def Obligations.EncodeStoresOneByteAWindow : Prop :=
  ∀ (l : Law) (f : Fmt) (ign : BitVec 9) (s : State), s.encodeReady f →
    let N := s.inLen.toNat / f.bw
    ∃ t, exec (.encode l f ign) s = .next t ∧ t.status = 0x01#32 ∧ t.count.toNat = N ∧ t.pos.toNat = N * f.bw ∧
      (∀ k < N, t.readByte .output k = compand l (decodeSample f (s.readBytes .input (k * f.bw) f.bw))) ∧
      (∀ a, N ≤ a → t.readByte .output a = s.readByte .output a) ∧ keepsBytes .input s t ∧ keepsHostSide s t ∧
      t.draws = s.draws

/-- R238: whatever the way `ENCODE` ends, the bytes of `OUT` from `COUNT` on, all of `IN`, and `CW`, `IN_LEN`, `OUT_LEN` are as
before; with the error, all of `OUT`. (That the draw counter is kept is the model's own: notes/assumptions/17.md.) -/
def Obligations.EncodeFrame : Prop :=
  ∀ (l : Law) (f : Fmt) (ign : BitVec 9) (s t : State), exec (.encode l f ign) s = .next t →
    (∀ a, t.count.toNat ≤ a → t.readByte .output a = s.readByte .output a) ∧ keepsBytes .input s t ∧
    keepsHostSide s t ∧ t.draws = s.draws ∧ (statusErr t.status = true → keepsBytes .output s t)

/-- R237: a one-byte format that passes the check without room faults at the first store past `OUT_LEN`, having stored
`OUT[0 .. OUT_LEN-1]`; with a byte width of 2 or more that fault never arises. -/
def Obligations.EncodeOverrunsOnlyOneByteFormats : Prop :=
  (∀ (l : Law) (f : Fmt) (ign : BitVec 9) (s : State), f.bw = 1 → s.lengthsTrue = true →
    s.inLen.toNat / 2 ≤ s.outLen.toNat → s.outLen.toNat < s.inLen.toNat →
    exec (.encode l f ign) s = .fault (.outputOverrun ((List.range s.outLen.toNat).map (s.codeOfWindow l f)))) ∧
  (∀ (l : Law) (f : Fmt) (ign : BitVec 9) (s : State) (bs : List Byte), 2 ≤ f.bw →
    exec (.encode l f ign) s ≠ .fault (.outputOverrun bs))

/-- R244 item 1, the source's fixture, through a step of the machine: both laws and both byte orders. (It starts from the
reset state, whose buffers have the real size the model chose: notes/assumptions/6.md.) -/
def Obligations.SourceFixtureEncodes : Prop :=
  let ready (bytes : List Byte) : State := { State.reset.writeBytes .input 0 bytes with inLen := 4#32, outLen := 2#32 }
  ∀ p ∈ [([0x03#8, 0xE8#8, 0xFC#8, 0x18#8], 0x11, [206#8, 78#8]), ([0x03#8, 0xE8#8, 0xFC#8, 0x18#8], 0x15, [250#8, 122#8]),
      ([0xE8#8, 0x03#8, 0x18#8, 0xFC#8], 0x19, [206#8, 78#8]), ([0xE8#8, 0x03#8, 0x18#8, 0xFC#8], 0x1D, [250#8, 122#8])],
    ∃ t, step ((ready p.1).withFetchWord 32 p.2.1) = .next t ∧ t.readBytes .output 0 2 = p.2.2 ∧ t.count = 2#32 ∧
      t.status = 0x01#32

/-- R52 at the level of the command: reversing the bytes of every window and flipping `LE` leaves every output byte, `COUNT`
and `STATUS` unchanged. -/
def Obligations.ByteOrderDoesNotChangeTheOutput : Prop :=
  ∀ p ∈ [(Fmt.s16be, Fmt.s16le), (.u16be, .u16le), (.s24be, .s24le), (.u24be, .u24le), (.s32be, .s32le),
      (.u32be, .u32le), (.f32be, .f32le), (.f64be, .f64le)],
    ∀ (l : Law) (ign ign' : BitVec 9) (s s' : State), s.encodeReady p.1 → s'.lengthsTrue = true →
      s'.inLen = s.inLen → s'.outLen = s.outLen →
      (∀ k < s.inLen.toNat / p.1.bw, s'.readBytes .input (k * p.2.bw) p.2.bw =
        (s.readBytes .input (k * p.1.bw) p.1.bw).reverse) →
      ∃ t t', exec (.encode l p.1 ign) s = .next t ∧ exec (.encode l p.2 ign') s' = .next t' ∧
        t'.status = t.status ∧ t'.count = t.count ∧
        ∀ a < t.count.toNat, t'.readByte .output a = t.readByte .output a

/-- R244 item 5 with R56 and R61: what `ENCODE` reports and stores depends on `IN_LEN`, `OUT_LEN` and the bytes
`IN[0 .. N*bw-1]` only: not on the trailing partial window, nor on anything else in the state. -/
def Obligations.EncodeDependsOnItsWindowsOnly : Prop :=
  ∀ (l : Law) (f : Fmt) (ign ign' : BitVec 9) (s s' t : State), s'.inLen = s.inLen → s'.outLen = s.outLen →
    s'.lengthsTrue = true →
    (∀ a < s.inLen.toNat / f.bw * f.bw, s'.readByte .input a = s.readByte .input a) →
    exec (.encode l f ign) s = .next t →
    ∃ t', exec (.encode l f ign') s' = .next t' ∧ t'.status = t.status ∧ t'.count = t.count ∧
      ∀ a < t.count.toNat, t'.readByte .output a = t.readByte .output a

/-- The same of `RESAMPLE` (R191, R61): what it reports and the kept windows depend on `IN_LEN` and the bytes
`IN[0 .. N*bw-1]` only. -/
def Obligations.ResampleDependsOnItsWindowsOnly : Prop :=
  ∀ (f : Fmt) (r u : Rate) (ip : Bool) (ign ign' : BitVec 1) (s s' t : State), s'.inLen = s.inLen →
    s'.outLen = s.outLen → s'.lengthsTrue = true →
    (∀ a < s.inLen.toNat / f.bw * f.bw, s'.readByte .input a = s.readByte .input a) →
    exec (.resample f r u ip ign) s = .next t →
    ∃ t', exec (.resample f r u ip ign') s' = .next t' ∧ t'.status = t.status ∧ t'.count = t.count ∧
      ∀ a < t.count.toNat, t'.readByte (resampleDst ip) a = t.readByte (resampleDst ip) a

/-- R21 and R292: no command that runs depends on what an earlier one left: with other values in `STATUS`, `COUNT` and every
transient register the outcome of `ENCODE` and of `RESAMPLE` is the same. (The stage sequences `xw`, `yw`, `ow` among them
are cleared by the model's choice, notes/assumptions/8.md.) -/
def Obligations.CommandsForgetEarlierResults : Prop :=
  ∀ (s : State) (status count pos : Word) (win : Vector Byte 8) (sample : Sample) (code : Byte) (y1 y2 : LpfT)
    (xw yw ow : List Window),
    let s' : State := { s with status := status, count := count, pos := pos, win := win, sample := sample, code := code,
                               y1 := y1, y2 := y2, xw := xw, yw := yw, ow := ow }
    (∀ l f ign, exec (.encode l f ign) s' = exec (.encode l f ign) s) ∧
    (∀ f r t ip ign, exec (.resample f r t ip ign) s' = exec (.resample f r t ip ign) s)

/-- R240: a write of `CW` with a word whose `CMD` and reserved field are 0, whatever its ignored fields, changes `CW` and
nothing else, from every state; so does the instruction itself. -/
def Obligations.NopChangesNothing : Prop :=
  (∀ (s : State) (ign : BitVec 16), exec (.nop ign) s = .next s) ∧
  (∀ (s : State) (v : Word), v.toNat % 4 = 0 → v.toNat < 2 ^ 18 → launch v s = .next { s with cw := v })

/-- R267: the error leaves nothing behind: `ENCODE` started again after it with another `OUT_LEN` has the outcome it would
have had without the failed launch. (It rests on what the start clears, `Y1`, `Y2` and the stage sequences among it:
notes/assumptions/8.md.) -/
def Obligations.RetryAfterTheErrorOwesNothing : Prop :=
  ∀ (l : Law) (f : Fmt) (ign : BitVec 9) (s t : State) (n : Word), exec (.encode l f ign) s = .next t →
    statusErr t.status = true →
    exec (.encode l f ign) { t with outLen := n } = exec (.encode l f ign) { s with outLen := n }

/-! ## Whole-machine rules -/

/-- R264, R237, R220: where each instruction stops: `ENCODE` and `RESAMPLE` exactly on the three faults of R264, every other
instruction never; no instruction is refused. (That an untrue length stops either command, an in-place `RESAMPLE` with an
untrue `OUT_LEN` among them, is the model's reading of R264 against R216: notes/assumptions/9.md.) -/
def Obligations.InstructionsStopExactlyWhereTheSpecSays : Prop :=
  (∀ (l : Law) (f : Fmt) (ign : BitVec 9) (s : State), (∀ t, exec (.encode l f ign) s ≠ .next t) ↔
    (s.lengthsTrue = false ∨
      (f.bw = 1 ∧ s.inLen.toNat / 2 ≤ s.outLen.toNat ∧ s.outLen.toNat < s.inLen.toNat))) ∧
  (∀ (f : Fmt) (r t : Rate) (ip : Bool) (ign : BitVec 1) (s : State),
    (∀ u, exec (.resample f r t ip ign) s ≠ .next u) ↔
      (s.lengthsTrue = false ∨ (ip = false ∧ s.outLen ≠ s.inLen))) ∧
  (∀ (i : Instr) (s : State), i.cls ≠ .command → ∃ t, exec i s = .next t) ∧
  (∀ (i : Instr) (s : State) (why : Refusal), exec i s ≠ .refused why)

/-- R30 and R33: no instruction writes `CW`, `IN_LEN` or `OUT_LEN` (or the host's side); `IN` is written only by `RESAMPLE`
with `INPLACE = 1`, `OUT` only by `ENCODE` and by `RESAMPLE` with `INPLACE = 0`. -/
def Obligations.OnlyTheCommandsWriteTheBuffers : Prop :=
  ∀ (i : Instr) (s t : State), exec i s = .next t → keepsHostSide s t ∧
    (t.input = s.input ∨ ∃ f r u ign, i = .resample f r u true ign) ∧
    (t.output = s.output ∨ (∃ l f ign, i = .encode l f ign) ∨ ∃ f r u ign, i = .resample f r u false ign)

/-- R61 and R215: no instruction changes a byte of `IN` at or beyond `IN_LEN`, or of `OUT` at or beyond `OUT_LEN`. -/
def Obligations.NoStoreBeyondTheLengths : Prop :=
  ∀ (i : Instr) (s t : State), exec i s = .next t →
    (∀ a, s.inLen.toNat ≤ a → t.readByte .input a = s.readByte .input a) ∧
    (∀ a, s.outLen.toNat ≤ a → t.readByte .output a = s.readByte .output a)

/-- R28 and R261: `STATUS` and `COUNT` are written by `ENCODE` and `RESAMPLE` only; a command that ends has `DONE` set, `ERR`
set only by `ENCODE` with `OUT_LEN < IN_LEN div 2`, and the reserved bits 0. -/
def Obligations.OnlyEncodeRaisesTheError : Prop :=
  ∀ (i : Instr) (s t : State), exec i s = .next t →
    (t.status = s.status ∧ t.count = s.count ∧ (∀ l f ign, i ≠ .encode l f ign) ∧
      (∀ f r u ip ign, i ≠ .resample f r u ip ign)) ∨
    (t.status = 0x01#32 ∧ ((∃ l f ign, i = .encode l f ign) ∨ ∃ f r u ip ign, i = .resample f r u ip ign)) ∨
    (t.status = 0x13#32 ∧ t.count = 0#32 ∧ s.outLen.toNat < s.inLen.toNat / 2 ∧ ∃ l f ign, i = .encode l f ign)

/-- R22, R110, R150, R170: no micro-operation touches a buffer, a control register or the window pointer; each transient
register is written by the operations the table names only. (That the draw counter is kept is the model's own:
notes/assumptions/17.md.) -/
def Obligations.MicroOperationsWriteTheirRegisterOnly : Prop :=
  ∀ (i : Instr) (s t : State), i.cls ≠ .command → exec i s = .next t →
    t.input = s.input ∧ t.output = s.output ∧ keepsHostSide s t ∧ t.status = s.status ∧ t.count = s.count ∧
    t.pos = s.pos ∧ t.win = s.win ∧ t.xw = s.xw ∧ t.draws = s.draws ∧
    (i.cls ≠ .decoder → t.sample = s.sample) ∧ (i.cls ≠ .compander → t.code = s.code) ∧
    (i.cls ≠ .filter → t.y1 = s.y1 ∧ t.y2 = s.y2 ∧ t.yw = s.yw) ∧ (i.cls ≠ .decimator → t.ow = s.ow)

/-! ## The host's access to the buffers -/

/-- R93: `COPYBACK` copies `OUT[0 .. COUNT-1]` to `IN[0 .. COUNT-1]` and writes `COUNT` to `IN_LEN`, where both buffers have the
room; nothing else changes. (The host's queue is the model's: notes/assumptions/7.md.) -/
def Obligations.CopyBackCopiesTheResult : Prop :=
  ∀ (s : State) (rest : List HostAction), s.pending = .copyBack :: rest → s.count ≤ s.output.size →
    s.count ≤ s.input.size →
    ∃ t, step s = .next t ∧ t.inLen = s.count ∧
      (∀ a < s.count.toNat, t.readByte .input a = s.readByte .output a) ∧
      (∀ a, s.count.toNat ≤ a → t.readByte .input a = s.readByte .input a) ∧ t.output = s.output ∧
      t = { s with inLen := t.inLen, input := t.input, pending := rest } ∧ t.input.size = s.input.size

/-- R92 and R243: the host's accesses to the buffers. The lines `IN <- …` and `OUT <- …` store the bytes from index 0; their
number goes to `IN_LEN` for `IN` and nowhere for `OUT`. A single-byte store changes that byte only; a read (`IN?`, `OUT?`)
returns the byte and changes nothing; supplying a buffer sets its real size. Every other byte and register is as before.
An access beyond the buffer stops. (The model's choices: the host's queue and `hostData`, notes/assumptions/7.md; the single
accesses and the stop, notes/assumptions/13.md; that a newly supplied buffer keeps the bytes below its size and holds
nothing else, notes/assumptions/6.md.) -/
def Obligations.HostStoresBytes : Prop :=
  (∀ (s : State) (rest : List HostAction) (bs : List Byte), s.pending = .storeIn bs :: rest →
    bs.length ≤ s.input.size.toNat →
    ∃ t, step s = .next t ∧ t.inLen.toNat = bs.length ∧ t.readBytes .input 0 bs.length = bs ∧
      (∀ a, bs.length ≤ a → t.readByte .input a = s.readByte .input a) ∧
      t = { s with inLen := t.inLen, input := t.input, pending := rest } ∧ t.input.size = s.input.size) ∧
  (∀ (s : State) (rest : List HostAction) (bs : List Byte), s.pending = .storeOut bs :: rest →
    bs.length ≤ s.output.size.toNat →
    ∃ t, step s = .next t ∧ t.readBytes .output 0 bs.length = bs ∧
      (∀ a, bs.length ≤ a → t.readByte .output a = s.readByte .output a) ∧
      t = { s with output := t.output, pending := rest } ∧ t.output.size = s.output.size) ∧
  (∀ (s : State) (rest : List HostAction) (sp : Space) (a : Nat) (b : Byte), s.pending = .storeByte sp a b :: rest →
    a < (s.buffer sp).size.toNat →
    ∃ t, step s = .next t ∧ t.readByte sp a = b ∧
      (∀ sp' a', (sp' ≠ sp ∨ a' ≠ a) → t.readByte sp' a' = s.readByte sp' a') ∧
      t = { s with input := t.input, output := t.output, pending := rest } ∧
      t.input.size = s.input.size ∧ t.output.size = s.output.size) ∧
  (∀ (s : State) (rest : List HostAction) (sp : Space) (a : Nat), s.pending = .loadByte sp a :: rest →
    a < (s.buffer sp).size.toNat →
    ∃ t, step s = .next t ∧ t.hostData.toNat = (s.readByte sp a).toNat ∧
      t = { s with hostData := t.hostData, pending := rest }) ∧
  (∀ (s : State) (rest : List HostAction) (sp : Space) (size : Word), s.pending = .supply sp size :: rest →
    ∃ t, step s = .next t ∧ (t.buffer sp).size = size ∧
      (∀ a < size.toNat, t.readByte sp a = s.readByte sp a) ∧
      (∀ a, size.toNat ≤ a → t.readByte sp a = Config.resetByte sp a) ∧
      (∀ sp', sp' ≠ sp → t.buffer sp' = s.buffer sp') ∧
      t = { s with input := t.input, output := t.output, pending := rest }) ∧
  (∀ (s : State) (rest : List HostAction) (sp : Space) (a : Nat) (b : Byte) (bs : List Byte),
    (s.pending = .storeByte sp a b :: rest ∧ (s.buffer sp).size.toNat ≤ a ∨
      s.pending = .loadByte sp a :: rest ∧ (s.buffer sp).size.toNat ≤ a ∨
      s.pending = .storeIn bs :: rest ∧ s.input.size.toNat < bs.length ∨
      s.pending = .storeOut bs :: rest ∧ s.output.size.toNat < bs.length ∨
      s.pending = .copyBack :: rest ∧ (s.output.size < s.count ∨ s.input.size < s.count)) →
    step s = .fault .hostBeyondBuffer)

/-! ## The range of the float formats -/

/-- R133, its float row: every sample of -32768..32767 is what each of the four float decoders writes from some window. (For
a NaN see `FloatDecodersWriteTheirSample`: `NAN_SAMPLE`, a free value, notes/assumptions/1.md.) -/
def Obligations.FloatDecodersReachEverySample : Prop :=
  ∀ f ∈ [Fmt.f32be, .f32le, .f64be, .f64le], ∀ x : Sample, ∃ s t : State,
    exec f.dec s = .next t ∧ t.sample = x
end

