-- ==== Sys2Proof/Laws/State.lean ====
section
/-! SUPPORT. Sys2Proof/Laws/State.lean: one lemma per field per named update of the state, so that no later proof unfolds
a record update. -/

namespace Sys2Proof.Machine

variable (s : State) (A : LpfArith) (C : FiltRate → Coef) (sp : Space) (b : Buffer) (a : Nat) (v : Sample) (c : Byte)
variable (m : Memory) (bs : List Byte) (ws : List Window) (k n bw : Nat) (f : Fmt) (l : Law) (r t : Rate) (w : Word)

/-! ## setBuffer, setCells, writeByte, writeBytes, storeWindows, freeWindows -/

@[simp] theorem setBuffer_cw : (s.setBuffer sp b).cw = s.cw := by cases sp <;> rfl
@[simp] theorem setBuffer_inLen : (s.setBuffer sp b).inLen = s.inLen := by cases sp <;> rfl
@[simp] theorem setBuffer_outLen : (s.setBuffer sp b).outLen = s.outLen := by cases sp <;> rfl
@[simp] theorem setBuffer_status : (s.setBuffer sp b).status = s.status := by cases sp <;> rfl
@[simp] theorem setBuffer_count : (s.setBuffer sp b).count = s.count := by cases sp <;> rfl
@[simp] theorem setBuffer_win : (s.setBuffer sp b).win = s.win := by cases sp <;> rfl
@[simp] theorem setBuffer_sample : (s.setBuffer sp b).sample = s.sample := by cases sp <;> rfl
@[simp] theorem setBuffer_code : (s.setBuffer sp b).code = s.code := by cases sp <;> rfl
@[simp] theorem setBuffer_y1 : (s.setBuffer sp b).y1 = s.y1 := by cases sp <;> rfl
@[simp] theorem setBuffer_y2 : (s.setBuffer sp b).y2 = s.y2 := by cases sp <;> rfl
@[simp] theorem setBuffer_pos : (s.setBuffer sp b).pos = s.pos := by cases sp <;> rfl
@[simp] theorem setBuffer_xw : (s.setBuffer sp b).xw = s.xw := by cases sp <;> rfl
@[simp] theorem setBuffer_yw : (s.setBuffer sp b).yw = s.yw := by cases sp <;> rfl
@[simp] theorem setBuffer_ow : (s.setBuffer sp b).ow = s.ow := by cases sp <;> rfl
@[simp] theorem setBuffer_draws : (s.setBuffer sp b).draws = s.draws := by cases sp <;> rfl
@[simp] theorem setBuffer_pending : (s.setBuffer sp b).pending = s.pending := by cases sp <;> rfl
@[simp] theorem setBuffer_hostData : (s.setBuffer sp b).hostData = s.hostData := by cases sp <;> rfl

@[simp] theorem setBuffer_buffer_self : (s.setBuffer sp b).buffer sp = b := by cases sp <;> rfl
theorem setBuffer_buffer_ne {sp sp' : Space} (h : sp' ≠ sp) : (s.setBuffer sp b).buffer sp' = s.buffer sp' := by
  cases sp <;> cases sp' <;> first | rfl | exact absurd rfl h

@[simp] theorem setCells_cw : (s.setCells sp m).cw = s.cw := by cases sp <;> rfl
@[simp] theorem setCells_inLen : (s.setCells sp m).inLen = s.inLen := by cases sp <;> rfl
@[simp] theorem setCells_outLen : (s.setCells sp m).outLen = s.outLen := by cases sp <;> rfl
@[simp] theorem setCells_status : (s.setCells sp m).status = s.status := by cases sp <;> rfl
@[simp] theorem setCells_count : (s.setCells sp m).count = s.count := by cases sp <;> rfl
@[simp] theorem setCells_win : (s.setCells sp m).win = s.win := by cases sp <;> rfl
@[simp] theorem setCells_sample : (s.setCells sp m).sample = s.sample := by cases sp <;> rfl
@[simp] theorem setCells_code : (s.setCells sp m).code = s.code := by cases sp <;> rfl
@[simp] theorem setCells_y1 : (s.setCells sp m).y1 = s.y1 := by cases sp <;> rfl
@[simp] theorem setCells_y2 : (s.setCells sp m).y2 = s.y2 := by cases sp <;> rfl
@[simp] theorem setCells_pos : (s.setCells sp m).pos = s.pos := by cases sp <;> rfl
@[simp] theorem setCells_xw : (s.setCells sp m).xw = s.xw := by cases sp <;> rfl
@[simp] theorem setCells_yw : (s.setCells sp m).yw = s.yw := by cases sp <;> rfl
@[simp] theorem setCells_ow : (s.setCells sp m).ow = s.ow := by cases sp <;> rfl
@[simp] theorem setCells_draws : (s.setCells sp m).draws = s.draws := by cases sp <;> rfl
@[simp] theorem setCells_pending : (s.setCells sp m).pending = s.pending := by cases sp <;> rfl
@[simp] theorem setCells_hostData : (s.setCells sp m).hostData = s.hostData := by cases sp <;> rfl

@[simp] theorem writeByte_cw : (s.writeByte sp a c).cw = s.cw := by cases sp <;> rfl
@[simp] theorem writeByte_inLen : (s.writeByte sp a c).inLen = s.inLen := by cases sp <;> rfl
@[simp] theorem writeByte_outLen : (s.writeByte sp a c).outLen = s.outLen := by cases sp <;> rfl
@[simp] theorem writeByte_status : (s.writeByte sp a c).status = s.status := by cases sp <;> rfl
@[simp] theorem writeByte_count : (s.writeByte sp a c).count = s.count := by cases sp <;> rfl
@[simp] theorem writeByte_win : (s.writeByte sp a c).win = s.win := by cases sp <;> rfl
@[simp] theorem writeByte_sample : (s.writeByte sp a c).sample = s.sample := by cases sp <;> rfl
@[simp] theorem writeByte_code : (s.writeByte sp a c).code = s.code := by cases sp <;> rfl
@[simp] theorem writeByte_y1 : (s.writeByte sp a c).y1 = s.y1 := by cases sp <;> rfl
@[simp] theorem writeByte_y2 : (s.writeByte sp a c).y2 = s.y2 := by cases sp <;> rfl
@[simp] theorem writeByte_pos : (s.writeByte sp a c).pos = s.pos := by cases sp <;> rfl
@[simp] theorem writeByte_xw : (s.writeByte sp a c).xw = s.xw := by cases sp <;> rfl
@[simp] theorem writeByte_yw : (s.writeByte sp a c).yw = s.yw := by cases sp <;> rfl
@[simp] theorem writeByte_ow : (s.writeByte sp a c).ow = s.ow := by cases sp <;> rfl
@[simp] theorem writeByte_draws : (s.writeByte sp a c).draws = s.draws := by cases sp <;> rfl
@[simp] theorem writeByte_pending : (s.writeByte sp a c).pending = s.pending := by cases sp <;> rfl
@[simp] theorem writeByte_hostData : (s.writeByte sp a c).hostData = s.hostData := by cases sp <;> rfl

@[simp] theorem writeBytes_cw : (s.writeBytes sp a bs).cw = s.cw := by cases sp <;> rfl
@[simp] theorem writeBytes_inLen : (s.writeBytes sp a bs).inLen = s.inLen := by cases sp <;> rfl
@[simp] theorem writeBytes_outLen : (s.writeBytes sp a bs).outLen = s.outLen := by cases sp <;> rfl
@[simp] theorem writeBytes_status : (s.writeBytes sp a bs).status = s.status := by cases sp <;> rfl
@[simp] theorem writeBytes_count : (s.writeBytes sp a bs).count = s.count := by cases sp <;> rfl
@[simp] theorem writeBytes_win : (s.writeBytes sp a bs).win = s.win := by cases sp <;> rfl
@[simp] theorem writeBytes_sample : (s.writeBytes sp a bs).sample = s.sample := by cases sp <;> rfl
@[simp] theorem writeBytes_code : (s.writeBytes sp a bs).code = s.code := by cases sp <;> rfl
@[simp] theorem writeBytes_y1 : (s.writeBytes sp a bs).y1 = s.y1 := by cases sp <;> rfl
@[simp] theorem writeBytes_y2 : (s.writeBytes sp a bs).y2 = s.y2 := by cases sp <;> rfl
@[simp] theorem writeBytes_pos : (s.writeBytes sp a bs).pos = s.pos := by cases sp <;> rfl
@[simp] theorem writeBytes_xw : (s.writeBytes sp a bs).xw = s.xw := by cases sp <;> rfl
@[simp] theorem writeBytes_yw : (s.writeBytes sp a bs).yw = s.yw := by cases sp <;> rfl
@[simp] theorem writeBytes_ow : (s.writeBytes sp a bs).ow = s.ow := by cases sp <;> rfl
@[simp] theorem writeBytes_draws : (s.writeBytes sp a bs).draws = s.draws := by cases sp <;> rfl
@[simp] theorem writeBytes_pending : (s.writeBytes sp a bs).pending = s.pending := by cases sp <;> rfl
@[simp] theorem writeBytes_hostData : (s.writeBytes sp a bs).hostData = s.hostData := by cases sp <;> rfl

@[simp] theorem storeWindows_cw : (s.storeWindows sp bw k ws).cw = s.cw := by cases sp <;> rfl
@[simp] theorem storeWindows_inLen : (s.storeWindows sp bw k ws).inLen = s.inLen := by cases sp <;> rfl
@[simp] theorem storeWindows_outLen : (s.storeWindows sp bw k ws).outLen = s.outLen := by cases sp <;> rfl
@[simp] theorem storeWindows_status : (s.storeWindows sp bw k ws).status = s.status := by cases sp <;> rfl
@[simp] theorem storeWindows_count : (s.storeWindows sp bw k ws).count = s.count := by cases sp <;> rfl
@[simp] theorem storeWindows_win : (s.storeWindows sp bw k ws).win = s.win := by cases sp <;> rfl
@[simp] theorem storeWindows_sample : (s.storeWindows sp bw k ws).sample = s.sample := by cases sp <;> rfl
@[simp] theorem storeWindows_code : (s.storeWindows sp bw k ws).code = s.code := by cases sp <;> rfl
@[simp] theorem storeWindows_y1 : (s.storeWindows sp bw k ws).y1 = s.y1 := by cases sp <;> rfl
@[simp] theorem storeWindows_y2 : (s.storeWindows sp bw k ws).y2 = s.y2 := by cases sp <;> rfl
@[simp] theorem storeWindows_pos : (s.storeWindows sp bw k ws).pos = s.pos := by cases sp <;> rfl
@[simp] theorem storeWindows_xw : (s.storeWindows sp bw k ws).xw = s.xw := by cases sp <;> rfl
@[simp] theorem storeWindows_yw : (s.storeWindows sp bw k ws).yw = s.yw := by cases sp <;> rfl
@[simp] theorem storeWindows_ow : (s.storeWindows sp bw k ws).ow = s.ow := by cases sp <;> rfl
@[simp] theorem storeWindows_draws : (s.storeWindows sp bw k ws).draws = s.draws := by cases sp <;> rfl
@[simp] theorem storeWindows_pending : (s.storeWindows sp bw k ws).pending = s.pending := by cases sp <;> rfl
@[simp] theorem storeWindows_hostData : (s.storeWindows sp bw k ws).hostData = s.hostData := by cases sp <;> rfl

@[simp] theorem freeWindows_cw : (s.freeWindows sp bw k n).cw = s.cw := by cases sp <;> rfl
@[simp] theorem freeWindows_inLen : (s.freeWindows sp bw k n).inLen = s.inLen := by cases sp <;> rfl
@[simp] theorem freeWindows_outLen : (s.freeWindows sp bw k n).outLen = s.outLen := by cases sp <;> rfl
@[simp] theorem freeWindows_status : (s.freeWindows sp bw k n).status = s.status := by cases sp <;> rfl
@[simp] theorem freeWindows_count : (s.freeWindows sp bw k n).count = s.count := by cases sp <;> rfl
@[simp] theorem freeWindows_win : (s.freeWindows sp bw k n).win = s.win := by cases sp <;> rfl
@[simp] theorem freeWindows_sample : (s.freeWindows sp bw k n).sample = s.sample := by cases sp <;> rfl
@[simp] theorem freeWindows_code : (s.freeWindows sp bw k n).code = s.code := by cases sp <;> rfl
@[simp] theorem freeWindows_y1 : (s.freeWindows sp bw k n).y1 = s.y1 := by cases sp <;> rfl
@[simp] theorem freeWindows_y2 : (s.freeWindows sp bw k n).y2 = s.y2 := by cases sp <;> rfl
@[simp] theorem freeWindows_pos : (s.freeWindows sp bw k n).pos = s.pos := by cases sp <;> rfl
@[simp] theorem freeWindows_xw : (s.freeWindows sp bw k n).xw = s.xw := by cases sp <;> rfl
@[simp] theorem freeWindows_yw : (s.freeWindows sp bw k n).yw = s.yw := by cases sp <;> rfl
@[simp] theorem freeWindows_ow : (s.freeWindows sp bw k n).ow = s.ow := by cases sp <;> rfl
@[simp] theorem freeWindows_draws : (s.freeWindows sp bw k n).draws = s.draws + 1 := by cases sp <;> rfl
@[simp] theorem freeWindows_pending : (s.freeWindows sp bw k n).pending = s.pending := by cases sp <;> rfl
@[simp] theorem freeWindows_hostData : (s.freeWindows sp bw k n).hostData = s.hostData := by cases sp <;> rfl

/-! ## start, raiseOutputBufferTooSmall, finish -/

@[simp] theorem start_cw : (s.start A).cw = s.cw := rfl
@[simp] theorem start_inLen : (s.start A).inLen = s.inLen := rfl
@[simp] theorem start_outLen : (s.start A).outLen = s.outLen := rfl
@[simp] theorem start_status : (s.start A).status = statusStarted := rfl
@[simp] theorem start_count : (s.start A).count = 0#32 := rfl
@[simp] theorem start_input : (s.start A).input = s.input := rfl
@[simp] theorem start_output : (s.start A).output = s.output := rfl
@[simp] theorem start_win : (s.start A).win = #v[0#8, 0#8, 0#8, 0#8, 0#8, 0#8, 0#8, 0#8] := rfl
@[simp] theorem start_sample : (s.start A).sample = 0#16 := rfl
@[simp] theorem start_code : (s.start A).code = 0#8 := rfl
@[simp] theorem start_y1 : (s.start A).y1 = A.zero := rfl
@[simp] theorem start_y2 : (s.start A).y2 = A.zero := rfl
@[simp] theorem start_pos : (s.start A).pos = 0#32 := rfl
@[simp] theorem start_xw : (s.start A).xw = [] := rfl
@[simp] theorem start_yw : (s.start A).yw = [] := rfl
@[simp] theorem start_ow : (s.start A).ow = [] := rfl
@[simp] theorem start_draws : (s.start A).draws = s.draws := rfl
@[simp] theorem start_pending : (s.start A).pending = s.pending := rfl
@[simp] theorem start_hostData : (s.start A).hostData = s.hostData := rfl

@[simp] theorem start_buffer (sp' : Space) : (s.start A).buffer sp' = s.buffer sp' := by cases sp' <;> rfl
@[simp] theorem start_readByte (sp' : Space) (i : Nat) : (s.start A).readByte sp' i = s.readByte sp' i := by cases sp' <;> rfl

@[simp] theorem start_lengthsTrue : (s.start A).lengthsTrue = s.lengthsTrue := rfl
@[simp] theorem start_windowCount : (s.start A).windowCount bw = s.windowCount bw := rfl

@[simp] theorem raise_cw : (s.raiseOutputBufferTooSmall).cw = s.cw := rfl
@[simp] theorem raise_inLen : (s.raiseOutputBufferTooSmall).inLen = s.inLen := rfl
@[simp] theorem raise_outLen : (s.raiseOutputBufferTooSmall).outLen = s.outLen := rfl
@[simp] theorem raise_status : (s.raiseOutputBufferTooSmall).status = statusTooSmall := rfl
@[simp] theorem raise_count : (s.raiseOutputBufferTooSmall).count = s.count := rfl
@[simp] theorem raise_input : (s.raiseOutputBufferTooSmall).input = s.input := rfl
@[simp] theorem raise_output : (s.raiseOutputBufferTooSmall).output = s.output := rfl
@[simp] theorem raise_win : (s.raiseOutputBufferTooSmall).win = s.win := rfl
@[simp] theorem raise_sample : (s.raiseOutputBufferTooSmall).sample = s.sample := rfl
@[simp] theorem raise_code : (s.raiseOutputBufferTooSmall).code = s.code := rfl
@[simp] theorem raise_y1 : (s.raiseOutputBufferTooSmall).y1 = s.y1 := rfl
@[simp] theorem raise_y2 : (s.raiseOutputBufferTooSmall).y2 = s.y2 := rfl
@[simp] theorem raise_pos : (s.raiseOutputBufferTooSmall).pos = s.pos := rfl
@[simp] theorem raise_xw : (s.raiseOutputBufferTooSmall).xw = s.xw := rfl
@[simp] theorem raise_yw : (s.raiseOutputBufferTooSmall).yw = s.yw := rfl
@[simp] theorem raise_ow : (s.raiseOutputBufferTooSmall).ow = s.ow := rfl
@[simp] theorem raise_draws : (s.raiseOutputBufferTooSmall).draws = s.draws := rfl
@[simp] theorem raise_pending : (s.raiseOutputBufferTooSmall).pending = s.pending := rfl
@[simp] theorem raise_hostData : (s.raiseOutputBufferTooSmall).hostData = s.hostData := rfl

@[simp] theorem raise_buffer (sp' : Space) : (s.raiseOutputBufferTooSmall).buffer sp' = s.buffer sp' := by cases sp' <;> rfl
@[simp] theorem raise_readByte (sp' : Space) (i : Nat) : (s.raiseOutputBufferTooSmall).readByte sp' i = s.readByte sp' i := by cases sp' <;> rfl

@[simp] theorem finish_cw : (s.finish).cw = s.cw := rfl
@[simp] theorem finish_inLen : (s.finish).inLen = s.inLen := rfl
@[simp] theorem finish_outLen : (s.finish).outLen = s.outLen := rfl
@[simp] theorem finish_status : (s.finish).status = statusFinished := rfl
@[simp] theorem finish_count : (s.finish).count = s.count := rfl
@[simp] theorem finish_input : (s.finish).input = s.input := rfl
@[simp] theorem finish_output : (s.finish).output = s.output := rfl
@[simp] theorem finish_win : (s.finish).win = s.win := rfl
@[simp] theorem finish_sample : (s.finish).sample = s.sample := rfl
@[simp] theorem finish_code : (s.finish).code = s.code := rfl
@[simp] theorem finish_y1 : (s.finish).y1 = s.y1 := rfl
@[simp] theorem finish_y2 : (s.finish).y2 = s.y2 := rfl
@[simp] theorem finish_pos : (s.finish).pos = s.pos := rfl
@[simp] theorem finish_xw : (s.finish).xw = s.xw := rfl
@[simp] theorem finish_yw : (s.finish).yw = s.yw := rfl
@[simp] theorem finish_ow : (s.finish).ow = s.ow := rfl
@[simp] theorem finish_draws : (s.finish).draws = s.draws := rfl
@[simp] theorem finish_pending : (s.finish).pending = s.pending := rfl
@[simp] theorem finish_hostData : (s.finish).hostData = s.hostData := rfl

@[simp] theorem finish_buffer (sp' : Space) : (s.finish).buffer sp' = s.buffer sp' := by cases sp' <;> rfl
@[simp] theorem finish_readByte (sp' : Space) (i : Nat) : (s.finish).readByte sp' i = s.readByte sp' i := by cases sp' <;> rfl

/-! ## fetchWindow, fetchWindows -/

@[simp] theorem fetchWindow_cw : (s.fetchWindow bw).cw = s.cw := rfl
@[simp] theorem fetchWindow_inLen : (s.fetchWindow bw).inLen = s.inLen := rfl
@[simp] theorem fetchWindow_outLen : (s.fetchWindow bw).outLen = s.outLen := rfl
@[simp] theorem fetchWindow_status : (s.fetchWindow bw).status = s.status := rfl
@[simp] theorem fetchWindow_count : (s.fetchWindow bw).count = s.count := rfl
@[simp] theorem fetchWindow_input : (s.fetchWindow bw).input = s.input := rfl
@[simp] theorem fetchWindow_output : (s.fetchWindow bw).output = s.output := rfl
@[simp] theorem fetchWindow_win : (s.fetchWindow bw).win = mergeWin s.win (s.readBytes .input s.pos.toNat bw) := rfl
@[simp] theorem fetchWindow_sample : (s.fetchWindow bw).sample = s.sample := rfl
@[simp] theorem fetchWindow_code : (s.fetchWindow bw).code = s.code := rfl
@[simp] theorem fetchWindow_y1 : (s.fetchWindow bw).y1 = s.y1 := rfl
@[simp] theorem fetchWindow_y2 : (s.fetchWindow bw).y2 = s.y2 := rfl
@[simp] theorem fetchWindow_pos : (s.fetchWindow bw).pos = s.pos := rfl
@[simp] theorem fetchWindow_xw : (s.fetchWindow bw).xw = s.xw := rfl
@[simp] theorem fetchWindow_yw : (s.fetchWindow bw).yw = s.yw := rfl
@[simp] theorem fetchWindow_ow : (s.fetchWindow bw).ow = s.ow := rfl
@[simp] theorem fetchWindow_draws : (s.fetchWindow bw).draws = s.draws := rfl
@[simp] theorem fetchWindow_pending : (s.fetchWindow bw).pending = s.pending := rfl
@[simp] theorem fetchWindow_hostData : (s.fetchWindow bw).hostData = s.hostData := rfl

@[simp] theorem fetchWindow_buffer (sp' : Space) : (s.fetchWindow bw).buffer sp' = s.buffer sp' := by cases sp' <;> rfl
@[simp] theorem fetchWindow_readByte (sp' : Space) (i : Nat) : (s.fetchWindow bw).readByte sp' i = s.readByte sp' i := by cases sp' <;> rfl

@[simp] theorem fetchWindows_cw : (s.fetchWindows bw).cw = s.cw := rfl
@[simp] theorem fetchWindows_inLen : (s.fetchWindows bw).inLen = s.inLen := rfl
@[simp] theorem fetchWindows_outLen : (s.fetchWindows bw).outLen = s.outLen := rfl
@[simp] theorem fetchWindows_status : (s.fetchWindows bw).status = s.status := rfl
@[simp] theorem fetchWindows_count : (s.fetchWindows bw).count = s.count := rfl
@[simp] theorem fetchWindows_input : (s.fetchWindows bw).input = s.input := rfl
@[simp] theorem fetchWindows_output : (s.fetchWindows bw).output = s.output := rfl
@[simp] theorem fetchWindows_sample : (s.fetchWindows bw).sample = s.sample := rfl
@[simp] theorem fetchWindows_code : (s.fetchWindows bw).code = s.code := rfl
@[simp] theorem fetchWindows_y1 : (s.fetchWindows bw).y1 = s.y1 := rfl
@[simp] theorem fetchWindows_y2 : (s.fetchWindows bw).y2 = s.y2 := rfl
@[simp] theorem fetchWindows_pos : (s.fetchWindows bw).pos = BitVec.ofNat 32 (s.windowCount bw * bw) := rfl
@[simp] theorem fetchWindows_xw : (s.fetchWindows bw).xw = (List.range (s.windowCount bw)).map (fun m => s.readBytes .input (m * bw) bw) := rfl
@[simp] theorem fetchWindows_yw : (s.fetchWindows bw).yw = s.yw := rfl
@[simp] theorem fetchWindows_ow : (s.fetchWindows bw).ow = s.ow := rfl
@[simp] theorem fetchWindows_draws : (s.fetchWindows bw).draws = s.draws := rfl
@[simp] theorem fetchWindows_pending : (s.fetchWindows bw).pending = s.pending := rfl
@[simp] theorem fetchWindows_hostData : (s.fetchWindows bw).hostData = s.hostData := rfl

@[simp] theorem fetchWindows_buffer (sp' : Space) : (s.fetchWindows bw).buffer sp' = s.buffer sp' := by cases sp' <;> rfl
@[simp] theorem fetchWindows_readByte (sp' : Space) (i : Nat) : (s.fetchWindows bw).readByte sp' i = s.readByte sp' i := by cases sp' <;> rfl

@[simp] theorem fetchWindows_windowCount : (s.fetchWindows bw).windowCount n = s.windowCount n := rfl

/-! ## setSample, setCode, runDec, runCmp, encodeWindow -/

@[simp] theorem setSample_cw : (s.setSample v).cw = s.cw := rfl
@[simp] theorem setSample_inLen : (s.setSample v).inLen = s.inLen := rfl
@[simp] theorem setSample_outLen : (s.setSample v).outLen = s.outLen := rfl
@[simp] theorem setSample_status : (s.setSample v).status = s.status := rfl
@[simp] theorem setSample_count : (s.setSample v).count = s.count := rfl
@[simp] theorem setSample_input : (s.setSample v).input = s.input := rfl
@[simp] theorem setSample_output : (s.setSample v).output = s.output := rfl
@[simp] theorem setSample_win : (s.setSample v).win = s.win := rfl
@[simp] theorem setSample_sample : (s.setSample v).sample = v := rfl
@[simp] theorem setSample_code : (s.setSample v).code = s.code := rfl
@[simp] theorem setSample_y1 : (s.setSample v).y1 = s.y1 := rfl
@[simp] theorem setSample_y2 : (s.setSample v).y2 = s.y2 := rfl
@[simp] theorem setSample_pos : (s.setSample v).pos = s.pos := rfl
@[simp] theorem setSample_xw : (s.setSample v).xw = s.xw := rfl
@[simp] theorem setSample_yw : (s.setSample v).yw = s.yw := rfl
@[simp] theorem setSample_ow : (s.setSample v).ow = s.ow := rfl
@[simp] theorem setSample_draws : (s.setSample v).draws = s.draws := rfl
@[simp] theorem setSample_pending : (s.setSample v).pending = s.pending := rfl
@[simp] theorem setSample_hostData : (s.setSample v).hostData = s.hostData := rfl

@[simp] theorem setSample_buffer (sp' : Space) : (s.setSample v).buffer sp' = s.buffer sp' := by cases sp' <;> rfl
@[simp] theorem setSample_readByte (sp' : Space) (i : Nat) : (s.setSample v).readByte sp' i = s.readByte sp' i := by cases sp' <;> rfl

@[simp] theorem setCode_cw : (s.setCode c).cw = s.cw := rfl
@[simp] theorem setCode_inLen : (s.setCode c).inLen = s.inLen := rfl
@[simp] theorem setCode_outLen : (s.setCode c).outLen = s.outLen := rfl
@[simp] theorem setCode_status : (s.setCode c).status = s.status := rfl
@[simp] theorem setCode_count : (s.setCode c).count = s.count := rfl
@[simp] theorem setCode_input : (s.setCode c).input = s.input := rfl
@[simp] theorem setCode_output : (s.setCode c).output = s.output := rfl
@[simp] theorem setCode_win : (s.setCode c).win = s.win := rfl
@[simp] theorem setCode_sample : (s.setCode c).sample = s.sample := rfl
@[simp] theorem setCode_code : (s.setCode c).code = c := rfl
@[simp] theorem setCode_y1 : (s.setCode c).y1 = s.y1 := rfl
@[simp] theorem setCode_y2 : (s.setCode c).y2 = s.y2 := rfl
@[simp] theorem setCode_pos : (s.setCode c).pos = s.pos := rfl
@[simp] theorem setCode_xw : (s.setCode c).xw = s.xw := rfl
@[simp] theorem setCode_yw : (s.setCode c).yw = s.yw := rfl
@[simp] theorem setCode_ow : (s.setCode c).ow = s.ow := rfl
@[simp] theorem setCode_draws : (s.setCode c).draws = s.draws := rfl
@[simp] theorem setCode_pending : (s.setCode c).pending = s.pending := rfl
@[simp] theorem setCode_hostData : (s.setCode c).hostData = s.hostData := rfl

@[simp] theorem setCode_buffer (sp' : Space) : (s.setCode c).buffer sp' = s.buffer sp' := by cases sp' <;> rfl
@[simp] theorem setCode_readByte (sp' : Space) (i : Nat) : (s.setCode c).readByte sp' i = s.readByte sp' i := by cases sp' <;> rfl

@[simp] theorem runDec_cw : (s.runDec f).cw = s.cw := rfl
@[simp] theorem runDec_inLen : (s.runDec f).inLen = s.inLen := rfl
@[simp] theorem runDec_outLen : (s.runDec f).outLen = s.outLen := rfl
@[simp] theorem runDec_status : (s.runDec f).status = s.status := rfl
@[simp] theorem runDec_count : (s.runDec f).count = s.count := rfl
@[simp] theorem runDec_input : (s.runDec f).input = s.input := rfl
@[simp] theorem runDec_output : (s.runDec f).output = s.output := rfl
@[simp] theorem runDec_win : (s.runDec f).win = s.win := rfl
@[simp] theorem runDec_sample : (s.runDec f).sample = decodeSample f (s.window f.bw) := rfl
@[simp] theorem runDec_code : (s.runDec f).code = s.code := rfl
@[simp] theorem runDec_y1 : (s.runDec f).y1 = s.y1 := rfl
@[simp] theorem runDec_y2 : (s.runDec f).y2 = s.y2 := rfl
@[simp] theorem runDec_pos : (s.runDec f).pos = s.pos := rfl
@[simp] theorem runDec_xw : (s.runDec f).xw = s.xw := rfl
@[simp] theorem runDec_yw : (s.runDec f).yw = s.yw := rfl
@[simp] theorem runDec_ow : (s.runDec f).ow = s.ow := rfl
@[simp] theorem runDec_draws : (s.runDec f).draws = s.draws := rfl
@[simp] theorem runDec_pending : (s.runDec f).pending = s.pending := rfl
@[simp] theorem runDec_hostData : (s.runDec f).hostData = s.hostData := rfl

@[simp] theorem runDec_buffer (sp' : Space) : (s.runDec f).buffer sp' = s.buffer sp' := by cases sp' <;> rfl
@[simp] theorem runDec_readByte (sp' : Space) (i : Nat) : (s.runDec f).readByte sp' i = s.readByte sp' i := by cases sp' <;> rfl

@[simp] theorem runCmp_cw : (s.runCmp l).cw = s.cw := rfl
@[simp] theorem runCmp_inLen : (s.runCmp l).inLen = s.inLen := rfl
@[simp] theorem runCmp_outLen : (s.runCmp l).outLen = s.outLen := rfl
@[simp] theorem runCmp_status : (s.runCmp l).status = s.status := rfl
@[simp] theorem runCmp_count : (s.runCmp l).count = s.count := rfl
@[simp] theorem runCmp_input : (s.runCmp l).input = s.input := rfl
@[simp] theorem runCmp_output : (s.runCmp l).output = s.output := rfl
@[simp] theorem runCmp_win : (s.runCmp l).win = s.win := rfl
@[simp] theorem runCmp_sample : (s.runCmp l).sample = s.sample := rfl
@[simp] theorem runCmp_code : (s.runCmp l).code = compand l s.sample := rfl
@[simp] theorem runCmp_y1 : (s.runCmp l).y1 = s.y1 := rfl
@[simp] theorem runCmp_y2 : (s.runCmp l).y2 = s.y2 := rfl
@[simp] theorem runCmp_pos : (s.runCmp l).pos = s.pos := rfl
@[simp] theorem runCmp_xw : (s.runCmp l).xw = s.xw := rfl
@[simp] theorem runCmp_yw : (s.runCmp l).yw = s.yw := rfl
@[simp] theorem runCmp_ow : (s.runCmp l).ow = s.ow := rfl
@[simp] theorem runCmp_draws : (s.runCmp l).draws = s.draws := rfl
@[simp] theorem runCmp_pending : (s.runCmp l).pending = s.pending := rfl
@[simp] theorem runCmp_hostData : (s.runCmp l).hostData = s.hostData := rfl

@[simp] theorem runCmp_buffer (sp' : Space) : (s.runCmp l).buffer sp' = s.buffer sp' := by cases sp' <;> rfl
@[simp] theorem runCmp_readByte (sp' : Space) (i : Nat) : (s.runCmp l).readByte sp' i = s.readByte sp' i := by cases sp' <;> rfl

@[simp] theorem encodeWindow_cw : (s.encodeWindow l f).cw = s.cw := rfl
@[simp] theorem encodeWindow_inLen : (s.encodeWindow l f).inLen = s.inLen := rfl
@[simp] theorem encodeWindow_outLen : (s.encodeWindow l f).outLen = s.outLen := rfl
@[simp] theorem encodeWindow_status : (s.encodeWindow l f).status = s.status := rfl
@[simp] theorem encodeWindow_count : (s.encodeWindow l f).count = s.count := rfl
@[simp] theorem encodeWindow_input : (s.encodeWindow l f).input = s.input := rfl
@[simp] theorem encodeWindow_output : (s.encodeWindow l f).output = s.output := rfl
@[simp] theorem encodeWindow_win : (s.encodeWindow l f).win = mergeWin s.win (s.readBytes .input s.pos.toNat f.bw) := rfl
@[simp] theorem encodeWindow_sample : (s.encodeWindow l f).sample = decodeSample f ((s.fetchWindow f.bw).window f.bw) := rfl
@[simp] theorem encodeWindow_code : (s.encodeWindow l f).code = compand l (decodeSample f ((s.fetchWindow f.bw).window f.bw)) := rfl
@[simp] theorem encodeWindow_y1 : (s.encodeWindow l f).y1 = s.y1 := rfl
@[simp] theorem encodeWindow_y2 : (s.encodeWindow l f).y2 = s.y2 := rfl
@[simp] theorem encodeWindow_pos : (s.encodeWindow l f).pos = s.pos := rfl
@[simp] theorem encodeWindow_xw : (s.encodeWindow l f).xw = s.xw := rfl
@[simp] theorem encodeWindow_yw : (s.encodeWindow l f).yw = s.yw := rfl
@[simp] theorem encodeWindow_ow : (s.encodeWindow l f).ow = s.ow := rfl
@[simp] theorem encodeWindow_draws : (s.encodeWindow l f).draws = s.draws := rfl
@[simp] theorem encodeWindow_pending : (s.encodeWindow l f).pending = s.pending := rfl
@[simp] theorem encodeWindow_hostData : (s.encodeWindow l f).hostData = s.hostData := rfl

@[simp] theorem encodeWindow_buffer (sp' : Space) : (s.encodeWindow l f).buffer sp' = s.buffer sp' := by cases sp' <;> rfl
@[simp] theorem encodeWindow_readByte (sp' : Space) (i : Nat) : (s.encodeWindow l f).readByte sp' i = s.readByte sp' i := by cases sp' <;> rfl

/-! ## storeCode -/

@[simp] theorem storeCode_cw : (s.storeCode bw).cw = s.cw := rfl
@[simp] theorem storeCode_inLen : (s.storeCode bw).inLen = s.inLen := rfl
@[simp] theorem storeCode_outLen : (s.storeCode bw).outLen = s.outLen := rfl
@[simp] theorem storeCode_status : (s.storeCode bw).status = s.status := rfl
@[simp] theorem storeCode_count : (s.storeCode bw).count = s.count + 1#32 := rfl
@[simp] theorem storeCode_input : (s.storeCode bw).input = s.input := rfl
@[simp] theorem storeCode_win : (s.storeCode bw).win = s.win := rfl
@[simp] theorem storeCode_sample : (s.storeCode bw).sample = s.sample := rfl
@[simp] theorem storeCode_code : (s.storeCode bw).code = s.code := rfl
@[simp] theorem storeCode_y1 : (s.storeCode bw).y1 = s.y1 := rfl
@[simp] theorem storeCode_y2 : (s.storeCode bw).y2 = s.y2 := rfl
@[simp] theorem storeCode_pos : (s.storeCode bw).pos = s.pos + BitVec.ofNat 32 bw := rfl
@[simp] theorem storeCode_xw : (s.storeCode bw).xw = s.xw := rfl
@[simp] theorem storeCode_yw : (s.storeCode bw).yw = s.yw := rfl
@[simp] theorem storeCode_ow : (s.storeCode bw).ow = s.ow := rfl
@[simp] theorem storeCode_draws : (s.storeCode bw).draws = s.draws := rfl
@[simp] theorem storeCode_pending : (s.storeCode bw).pending = s.pending := rfl
@[simp] theorem storeCode_hostData : (s.storeCode bw).hostData = s.hostData := rfl

/-! ## runLpf, runDecim -/

/-- `LPF.*` writes `yw`, `Y1` and `Y2` only (R194, R198). -/
theorem runLpf_eq : s.runLpf A C r f =
    { s with yw := (s.runLpf A C r f).yw, y1 := (s.runLpf A C r f).y1, y2 := (s.runLpf A C r f).y2 } := by
  cases r <;> rfl

@[simp] theorem runLpf_cw : (s.runLpf A C r f).cw = s.cw := by cases r <;> rfl
@[simp] theorem runLpf_inLen : (s.runLpf A C r f).inLen = s.inLen := by cases r <;> rfl
@[simp] theorem runLpf_outLen : (s.runLpf A C r f).outLen = s.outLen := by cases r <;> rfl
@[simp] theorem runLpf_status : (s.runLpf A C r f).status = s.status := by cases r <;> rfl
@[simp] theorem runLpf_count : (s.runLpf A C r f).count = s.count := by cases r <;> rfl
@[simp] theorem runLpf_input : (s.runLpf A C r f).input = s.input := by cases r <;> rfl
@[simp] theorem runLpf_output : (s.runLpf A C r f).output = s.output := by cases r <;> rfl
@[simp] theorem runLpf_win : (s.runLpf A C r f).win = s.win := by cases r <;> rfl
@[simp] theorem runLpf_sample : (s.runLpf A C r f).sample = s.sample := by cases r <;> rfl
@[simp] theorem runLpf_code : (s.runLpf A C r f).code = s.code := by cases r <;> rfl
@[simp] theorem runLpf_pos : (s.runLpf A C r f).pos = s.pos := by cases r <;> rfl
@[simp] theorem runLpf_xw : (s.runLpf A C r f).xw = s.xw := by cases r <;> rfl
@[simp] theorem runLpf_ow : (s.runLpf A C r f).ow = s.ow := by cases r <;> rfl
@[simp] theorem runLpf_draws : (s.runLpf A C r f).draws = s.draws := by cases r <;> rfl
@[simp] theorem runLpf_pending : (s.runLpf A C r f).pending = s.pending := by cases r <;> rfl
@[simp] theorem runLpf_hostData : (s.runLpf A C r f).hostData = s.hostData := by cases r <;> rfl
@[simp] theorem runLpf_buffer (sp' : Space) : (s.runLpf A C r f).buffer sp' = s.buffer sp' := by cases r <;> cases sp' <;> rfl
@[simp] theorem runLpf_readByte (sp' : Space) (i : Nat) : (s.runLpf A C r f).readByte sp' i = s.readByte sp' i := by
  cases r <;> cases sp' <;> rfl
@[simp] theorem runLpf_windowCount : (s.runLpf A C r f).windowCount bw = s.windowCount bw := by cases r <;> rfl

@[simp] theorem runDecim_cw : (s.runDecim r t).cw = s.cw := rfl
@[simp] theorem runDecim_inLen : (s.runDecim r t).inLen = s.inLen := rfl
@[simp] theorem runDecim_outLen : (s.runDecim r t).outLen = s.outLen := rfl
@[simp] theorem runDecim_status : (s.runDecim r t).status = s.status := rfl
@[simp] theorem runDecim_count : (s.runDecim r t).count = s.count := rfl
@[simp] theorem runDecim_input : (s.runDecim r t).input = s.input := rfl
@[simp] theorem runDecim_output : (s.runDecim r t).output = s.output := rfl
@[simp] theorem runDecim_win : (s.runDecim r t).win = s.win := rfl
@[simp] theorem runDecim_sample : (s.runDecim r t).sample = s.sample := rfl
@[simp] theorem runDecim_code : (s.runDecim r t).code = s.code := rfl
@[simp] theorem runDecim_y1 : (s.runDecim r t).y1 = s.y1 := rfl
@[simp] theorem runDecim_y2 : (s.runDecim r t).y2 = s.y2 := rfl
@[simp] theorem runDecim_pos : (s.runDecim r t).pos = s.pos := rfl
@[simp] theorem runDecim_xw : (s.runDecim r t).xw = s.xw := rfl
@[simp] theorem runDecim_yw : (s.runDecim r t).yw = s.yw := rfl
@[simp] theorem runDecim_ow : (s.runDecim r t).ow = keepEvery (stride r t) s.yw := rfl
@[simp] theorem runDecim_draws : (s.runDecim r t).draws = s.draws := rfl
@[simp] theorem runDecim_pending : (s.runDecim r t).pending = s.pending := rfl
@[simp] theorem runDecim_hostData : (s.runDecim r t).hostData = s.hostData := rfl

@[simp] theorem runDecim_buffer (sp' : Space) : (s.runDecim r t).buffer sp' = s.buffer sp' := by cases sp' <;> rfl
@[simp] theorem runDecim_readByte (sp' : Space) (i : Nat) : (s.runDecim r t).readByte sp' i = s.readByte sp' i := by cases sp' <;> rfl

@[simp] theorem runDecim_windowCount : (s.runDecim r t).windowCount bw = s.windowCount bw := rfl

/-! ## storeKept -/

@[simp] theorem storeKept_cw : (s.storeKept f sp).cw = s.cw := by cases sp <;> rfl
@[simp] theorem storeKept_inLen : (s.storeKept f sp).inLen = s.inLen := by cases sp <;> rfl
@[simp] theorem storeKept_outLen : (s.storeKept f sp).outLen = s.outLen := by cases sp <;> rfl
@[simp] theorem storeKept_status : (s.storeKept f sp).status = s.status := by cases sp <;> rfl
@[simp] theorem storeKept_count : (s.storeKept f sp).count = BitVec.ofNat 32 (s.ow.length * f.bw) := by cases sp <;> rfl
@[simp] theorem storeKept_win : (s.storeKept f sp).win = s.win := by cases sp <;> rfl
@[simp] theorem storeKept_sample : (s.storeKept f sp).sample = s.sample := by cases sp <;> rfl
@[simp] theorem storeKept_code : (s.storeKept f sp).code = s.code := by cases sp <;> rfl
@[simp] theorem storeKept_y1 : (s.storeKept f sp).y1 = s.y1 := by cases sp <;> rfl
@[simp] theorem storeKept_y2 : (s.storeKept f sp).y2 = s.y2 := by cases sp <;> rfl
@[simp] theorem storeKept_pos : (s.storeKept f sp).pos = s.pos := by cases sp <;> rfl
@[simp] theorem storeKept_xw : (s.storeKept f sp).xw = s.xw := by cases sp <;> rfl
@[simp] theorem storeKept_yw : (s.storeKept f sp).yw = s.yw := by cases sp <;> rfl
@[simp] theorem storeKept_ow : (s.storeKept f sp).ow = s.ow := by cases sp <;> rfl
@[simp] theorem storeKept_draws : (s.storeKept f sp).draws = s.draws + 1 := by cases sp <;> rfl
@[simp] theorem storeKept_pending : (s.storeKept f sp).pending = s.pending := by cases sp <;> rfl
@[simp] theorem storeKept_hostData : (s.storeKept f sp).hostData = s.hostData := by cases sp <;> rfl

/-! ## withLaunch -/

@[simp] theorem withLaunch_cw : (s.withLaunch w).cw = s.cw := rfl
@[simp] theorem withLaunch_inLen : (s.withLaunch w).inLen = s.inLen := rfl
@[simp] theorem withLaunch_outLen : (s.withLaunch w).outLen = s.outLen := rfl
@[simp] theorem withLaunch_status : (s.withLaunch w).status = s.status := rfl
@[simp] theorem withLaunch_count : (s.withLaunch w).count = s.count := rfl
@[simp] theorem withLaunch_input : (s.withLaunch w).input = s.input := rfl
@[simp] theorem withLaunch_output : (s.withLaunch w).output = s.output := rfl
@[simp] theorem withLaunch_win : (s.withLaunch w).win = s.win := rfl
@[simp] theorem withLaunch_sample : (s.withLaunch w).sample = s.sample := rfl
@[simp] theorem withLaunch_code : (s.withLaunch w).code = s.code := rfl
@[simp] theorem withLaunch_y1 : (s.withLaunch w).y1 = s.y1 := rfl
@[simp] theorem withLaunch_y2 : (s.withLaunch w).y2 = s.y2 := rfl
@[simp] theorem withLaunch_pos : (s.withLaunch w).pos = s.pos := rfl
@[simp] theorem withLaunch_xw : (s.withLaunch w).xw = s.xw := rfl
@[simp] theorem withLaunch_yw : (s.withLaunch w).yw = s.yw := rfl
@[simp] theorem withLaunch_ow : (s.withLaunch w).ow = s.ow := rfl
@[simp] theorem withLaunch_draws : (s.withLaunch w).draws = s.draws := rfl
@[simp] theorem withLaunch_pending : (s.withLaunch w).pending = .writeReg 0 w :: s.pending := rfl
@[simp] theorem withLaunch_hostData : (s.withLaunch w).hostData = s.hostData := rfl

end Sys2Proof.Machine
end

