-- ==== Sys2Proof/Laws/Memory.lean ====
section
/-! SUPPORT. Sys2Proof/Laws/Memory.lean: what each memory operation does to the byte an index holds, that each keeps the
canonical form, and the same of the loads and stores of the buffers. -/

namespace Sys2Proof.Machine

/-! ## The byte memory -/

theorem Memory.lookup_insert_self (m : Memory) (a : Nat) (b : Byte) : (m.insert a b).lookup a = some b := by
  induction m with
  | nil => simp [Memory.insert, Memory.lookup]
  | cons e m ih =>
    obtain ⟨x, c⟩ := e
    simp only [Memory.insert]
    split
    · simp [Memory.lookup]
    · split <;> simp_all [Memory.lookup]

theorem Memory.lookup_insert_ne (m : Memory) {a a' : Nat} (b : Byte) (h : a' ≠ a) :
    (m.insert a b).lookup a' = m.lookup a' := by
  induction m with
  | nil => simp [Memory.insert, Memory.lookup, h]
  | cons e m ih =>
    obtain ⟨x, c⟩ := e
    simp only [Memory.insert]
    split
    · simp [Memory.lookup, h]
    · split
      · next hx => subst hx; simp [Memory.lookup, h]
      · simp [Memory.lookup, ih]

theorem Memory.mem_insert {m : Memory} {a : Nat} {b : Byte} {e : Host.Cell} (h : e ∈ m.insert a b) :
    e = (a, b) ∨ e ∈ m := by
  induction m with
  | nil => simpa [Memory.insert] using h
  | cons x m ih =>
    obtain ⟨x, c⟩ := x
    simp only [Memory.insert] at h
    split at h
    · simpa using h
    · split at h <;> simp only [List.mem_cons] at h ⊢ <;> grind

/-- A store of one byte keeps the canonical form. -/
theorem Memory.wf_insert {m : Memory} (hm : m.wf) (a : Nat) (b : Byte) : (m.insert a b).wf := by
  induction m with
  | nil => simp [Memory.insert, Memory.wf]
  | cons x m ih =>
    obtain ⟨x, c⟩ := x
    obtain ⟨hx, hm'⟩ := List.pairwise_cons.1 hm
    simp only [Memory.insert]
    split
    · refine List.pairwise_cons.2 ⟨fun e he => ?_, hm⟩
      rcases List.mem_cons.1 he with rfl | he
      · assumption
      · exact lt_trans ‹a < x› (hx e he)
    · split
      · next h => subst h; exact List.pairwise_cons.2 ⟨hx, hm'⟩
      · refine List.pairwise_cons.2 ⟨fun e he => ?_, ih hm'⟩
        rcases Memory.mem_insert he with rfl | he
        · simp only; omega
        · exact hx e he

theorem Memory.wf_insertBytes {m : Memory} (hm : m.wf) (a : Nat) (bs : List Byte) : (m.insertBytes a bs).wf := by
  induction bs generalizing m a with
  | nil => exact hm
  | cons b bs ih => exact ih (Memory.wf_insert hm a b) (a + 1)

theorem Memory.wf_insertWindows {m : Memory} (hm : m.wf) (bw k : Nat) (ws : List Window) :
    (m.insertWindows bw k ws).wf := by
  induction ws generalizing m k with
  | nil => exact hm
  | cons w ws ih => exact ih (Memory.wf_insertBytes hm _ w) (k + 1)

theorem Memory.wf_below {m : Memory} (hm : m.wf) (n : Nat) : (m.below n).wf := List.Pairwise.filter _ hm

/-- Every entry of a memory lies below `n`. -/
abbrev Memory.inside (m : Memory) (n : Nat) : Prop := ∀ e ∈ m, e.1 < n

theorem Memory.inside_insert {m : Memory} {n a : Nat} (hm : m.inside n) (ha : a < n) (b : Byte) :
    (m.insert a b).inside n := fun e he => by
  rcases Memory.mem_insert he with rfl | he
  · exact ha
  · exact hm e he

theorem Memory.inside_insertBytes {m : Memory} {n a : Nat} {bs : List Byte} (hm : m.inside n)
    (h : a + bs.length ≤ n) : (m.insertBytes a bs).inside n := by
  induction bs generalizing m a with
  | nil => exact hm
  | cons b bs ih =>
    simp only [List.length_cons] at h
    exact ih (Memory.inside_insert hm (by omega) b) (by omega)

theorem Memory.inside_insertWindows {m : Memory} {n bw k : Nat} {ws : List Window} (hm : m.inside n)
    (hw : ∀ w ∈ ws, w.length = bw) (h : (k + ws.length) * bw ≤ n) : (m.insertWindows bw k ws).inside n := by
  induction ws generalizing m k with
  | nil => exact hm
  | cons w ws ih =>
    have hl := hw w (by simp)
    have h2 : (k + 1) * bw ≤ (k + (ws.length + 1)) * bw := Nat.mul_le_mul_right _ (by omega)
    simp only [List.length_cons] at h
    refine ih (Memory.inside_insertBytes hm ?_) (fun w' hw' => hw w' (by simp [hw'])) ?_
    · rw [hl]; rw [Nat.add_mul] at h2; omega
    · rwa [Nat.add_right_comm, Nat.add_assoc]

theorem Memory.inside_below (m : Memory) (n : Nat) : (m.below n).inside n := fun e he => by
  simpa using (List.mem_filter.1 he).2

/-- Dropping the bytes from `n` on keeps each byte below `n` and leaves no other. -/
theorem Memory.lookup_below (m : Memory) (n a : Nat) : (m.below n).lookup a = if a < n then m.lookup a else none := by
  induction m with
  | nil => simp [Memory.below, Memory.lookup]
  | cons e m ih =>
    obtain ⟨x, c⟩ := e
    simp only [Memory.below, List.filter_cons] at ih ⊢
    split <;> simp only [Memory.lookup, ih] <;> grind

theorem Memory.lookup_insertBytes_out {m : Memory} {a i : Nat} {bs : List Byte} (h : i < a ∨ a + bs.length ≤ i) :
    (m.insertBytes a bs).lookup i = m.lookup i := by
  induction bs generalizing m a with
  | nil => rfl
  | cons b bs ih =>
    simp only [List.length_cons] at h
    show ((m.insert a b).insertBytes (a + 1) bs).lookup i = _
    rw [ih (by omega), Memory.lookup_insert_ne _ _ (by omega)]

theorem Memory.lookup_insertBytes_in {m : Memory} {a i : Nat} {bs : List Byte} (h : i < bs.length) :
    (m.insertBytes a bs).lookup (a + i) = some bs[i] := by
  induction bs generalizing m a i with
  | nil => simp at h
  | cons b bs ih =>
    show ((m.insert a b).insertBytes (a + 1) bs).lookup (a + i) = _
    cases i with
    | zero => rw [Memory.lookup_insertBytes_out (by omega)]; simpa using Memory.lookup_insert_self m a b
    | succ i =>
      have := ih (m := m.insert a b) (a := a + 1) (i := i) (by simpa using h)
      rw [show a + 1 + i = a + (i + 1) by omega] at this
      simpa using this

theorem Memory.lookup_insertWindows_out {m : Memory} {bw k i : Nat} {ws : List Window}
    (hw : ∀ w ∈ ws, w.length = bw) (h : i < k * bw ∨ (k + ws.length) * bw ≤ i) :
    (m.insertWindows bw k ws).lookup i = m.lookup i := by
  induction ws generalizing m k with
  | nil => rfl
  | cons w ws ih =>
    have hl := hw w (by simp)
    simp only [List.length_cons] at h
    have h2 : (k + 1) * bw ≤ (k + (ws.length + 1)) * bw := Nat.mul_le_mul_right _ (by omega)
    have h3 : (k + 1) * bw = k * bw + bw := by ring
    show ((m.insertBytes (k * bw) w).insertWindows bw (k + 1) ws).lookup i = _
    rw [ih (fun w' hw' => hw w' (by simp [hw'])), Memory.lookup_insertBytes_out]
    · omega
    · rw [show k + 1 + ws.length = k + (ws.length + 1) by omega]; omega

theorem Memory.lookup_insertWindows_in {m : Memory} {bw k j i : Nat} {ws : List Window}
    (hw : ∀ w ∈ ws, w.length = bw) (hj : j < ws.length) (hi : i < bw) :
    (m.insertWindows bw k ws).lookup ((k + j) * bw + i) = (ws[j])[i]? := by
  induction ws generalizing m k j with
  | nil => simp at hj
  | cons w ws ih =>
    have hl := hw w (by simp)
    have hw' : ∀ w' ∈ ws, w'.length = bw := fun w' h => hw w' (by simp [h])
    show ((m.insertBytes (k * bw) w).insertWindows bw (k + 1) ws).lookup _ = _
    cases j with
    | zero =>
      have h3 : (k + 1) * bw = k * bw + bw := by ring
      rw [Memory.lookup_insertWindows_out hw' (by rw [Nat.add_zero]; omega), Nat.add_zero,
        Memory.lookup_insertBytes_in (by omega)]
      simp [hl, hi]
    | succ j =>
      have := ih (m := m.insertBytes (k * bw) w) (k := k + 1) (j := j) hw' (by simpa using hj)
      rw [show k + 1 + j = k + (j + 1) by omega] at this
      simpa using this

/-! ## Loads and stores of the buffers -/

@[simp] theorem setCells_buffer_self (s : State) (sp : Space) (m : Memory) :
    (s.setCells sp m).buffer sp = ⟨(s.buffer sp).size, m⟩ := by cases sp <;> rfl

theorem setCells_buffer_ne (s : State) {sp sp' : Space} (m : Memory) (h : sp' ≠ sp) :
    (s.setCells sp m).buffer sp' = s.buffer sp' := setBuffer_buffer_ne s _ h

@[simp] theorem setCells_size (s : State) (sp sp' : Space) (m : Memory) :
    ((s.setCells sp m).buffer sp').size = (s.buffer sp').size := by cases sp <;> cases sp' <;> rfl

/-- The byte stored is the byte read. -/
theorem readByte_writeByte_self (s : State) (sp : Space) (a : Nat) (b : Byte) :
    (s.writeByte sp a b).readByte sp a = b := by
  simp [State.readByte, State.writeByte, Memory.lookup_insert_self]

/-- A store of one byte leaves every other byte of both buffers alone. -/
theorem readByte_writeByte_ne (s : State) {sp sp' : Space} {a a' : Nat} (b : Byte) (h : sp' ≠ sp ∨ a' ≠ a) :
    (s.writeByte sp a b).readByte sp' a' = s.readByte sp' a' := by
  unfold State.readByte State.writeByte
  by_cases hs : sp' = sp
  · subst hs
    simp [Memory.lookup_insert_ne _ _ (h.resolve_left (by simp))]
  · rw [setCells_buffer_ne _ _ hs]

/-- A store of a byte sequence leaves every byte outside it alone. -/
theorem readByte_writeBytes_out (s : State) {sp sp' : Space} {a i : Nat} {bs : List Byte}
    (h : sp' ≠ sp ∨ i < a ∨ a + bs.length ≤ i) : (s.writeBytes sp a bs).readByte sp' i = s.readByte sp' i := by
  unfold State.readByte State.writeBytes
  by_cases hs : sp' = sp
  · subst hs
    simp [Memory.lookup_insertBytes_out (h.resolve_left (by simp))]
  · rw [setCells_buffer_ne _ _ hs]

/-- A store of a byte sequence puts each of its bytes in place. -/
theorem readByte_writeBytes_in (s : State) {sp : Space} {a i : Nat} {bs : List Byte} (h : i < bs.length) :
    (s.writeBytes sp a bs).readByte sp (a + i) = bs[i] := by
  simp [State.readByte, State.writeBytes, Memory.lookup_insertBytes_in h]

/-- A store of windows leaves every byte outside them alone. -/
theorem readByte_storeWindows_out (s : State) {sp sp' : Space} {bw k i : Nat} {ws : List Window}
    (hw : ∀ w ∈ ws, w.length = bw) (h : sp' ≠ sp ∨ i < k * bw ∨ (k + ws.length) * bw ≤ i) :
    (s.storeWindows sp bw k ws).readByte sp' i = s.readByte sp' i := by
  unfold State.readByte State.storeWindows
  by_cases hs : sp' = sp
  · subst hs
    simp [Memory.lookup_insertWindows_out hw (h.resolve_left (by simp))]
  · rw [setCells_buffer_ne _ _ hs]

/-- A store of windows puts window `j` at window index `k + j`. -/
theorem readByte_storeWindows_in (s : State) {sp : Space} {bw k j i : Nat} {ws : List Window}
    (hw : ∀ w ∈ ws, w.length = bw) (hj : j < ws.length) (hi : i < bw) :
    (s.storeWindows sp bw k ws).readByte sp ((k + j) * bw + i) = (ws[j]).getD i 0#8 := by
  have hl : i < (ws[j]).length := by rw [hw _ (by simp)]; exact hi
  simp [State.readByte, State.storeWindows, Memory.lookup_insertWindows_in hw hj hi, hl]

@[simp] theorem readBytes_length (s : State) (sp : Space) (a n : Nat) : (s.readBytes sp a n).length = n := by
  simp [State.readBytes]

@[simp] theorem readBytes_getElem? (s : State) (sp : Space) (a n i : Nat) (h : i < n) :
    (s.readBytes sp a n)[i]? = some (s.readByte sp (a + i)) := by
  simp [State.readBytes, h]

/-- A read depends on the bytes it names only. -/
theorem readBytes_congr {s t : State} {sp : Space} {a n : Nat}
    (h : ∀ i < n, s.readByte sp (a + i) = t.readByte sp (a + i)) : s.readBytes sp a n = t.readBytes sp a n :=
  List.map_congr_left fun i hi => h i (List.mem_range.1 hi)

end Sys2Proof.Machine
end

