-- ==== Sys2Proof/Laws/Command.lean ====
section
/-! SUPPORT. Sys2Proof/Laws/Command.lean: what the shared operations of the two commands do, said once: the widths of the
formats, window fetch, the walk of `ENCODE`, the stages and the stores of `RESAMPLE`. -/

namespace Sys2Proof.Machine

/-! ## Formats and status -/

theorem Fmt.bw_pos (f : Fmt) : 0 < f.bw := by cases f <;> decide
theorem Fmt.bw_le (f : Fmt) : f.bw ≤ 8 := by cases f <;> decide
theorem Rate.hz_pos (r : Rate) : 0 < r.hz := by rcases r with _ | q <;> [decide; cases q <;> decide]

@[simp] theorem statusStarted_eq : statusStarted = 0x00#32 := by decide
@[simp] theorem statusFinished_eq : statusFinished = 0x01#32 := by decide
@[simp] theorem statusTooSmall_eq : statusTooSmall = 0x13#32 := by decide

/-- All `N` windows lie inside `IN` (20_memory.md R61). -/
theorem windowCount_mul_le (s : State) (bw : Nat) : s.windowCount bw * bw ≤ s.inLen.toNat :=
  Nat.div_mul_le_self _ _

/-- Window `k` lies inside the `N` windows. -/
theorem window_inside {k N bw : Nat} (h : k < N) : k * bw + bw ≤ N * bw := by
  have : (k + 1) * bw ≤ N * bw := Nat.mul_le_mul_right _ h
  rwa [Nat.add_mul, Nat.one_mul] at this

/-! ## Window fetch -/

/-- The front of `WIN` after a fetch is the window fetched. -/
theorem mergeWin_take (v : Vector Byte 8) {w : Window} (h : w.length ≤ 8) : (mergeWin v w).toList.take w.length = w := by
  rcases w with _ | ⟨b0, _ | ⟨b1, _ | ⟨b2, _ | ⟨b3, _ | ⟨b4, _ | ⟨b5, _ | ⟨b6, _ | ⟨b7, _ | ⟨b8, w⟩⟩⟩⟩⟩⟩⟩⟩⟩ <;>
    simp [mergeWin] at h ⊢
  omega

@[simp] theorem fetchWindow_window (s : State) (f : Fmt) :
    (s.fetchWindow f.bw).window f.bw = s.readBytes .input s.pos.toNat f.bw := by
  have := mergeWin_take s.win (w := s.readBytes .input s.pos.toNat f.bw) (by simpa using Fmt.bw_le f)
  simpa [State.window] using this

/-! ## The walk of ENCODE -/

@[simp] theorem storeCode_output_size (s : State) (bw : Nat) : (s.storeCode bw).output.size = s.output.size := rfl

@[simp] theorem storeCode_readByte_input (s : State) (bw a : Nat) :
    (s.storeCode bw).readByte .input a = s.readByte .input a := rfl

theorem storeCode_readByte_self (s : State) (bw : Nat) :
    (s.storeCode bw).readByte .output s.count.toNat = s.code := readByte_writeByte_self s .output s.count.toNat s.code

theorem storeCode_readByte_ne (s : State) (bw : Nat) {a : Nat} (h : a ≠ s.count.toNat) :
    (s.storeCode bw).readByte .output a = s.readByte .output a :=
  readByte_writeByte_ne (sp := .output) (sp' := .output) s s.code (.inr h)

/-- Everything the walk of `ENCODE` does when `OUT` has room for the windows left and `POS` does not wrap: it ends without
error, `COUNT` and `POS` have advanced past the windows, each window's byte lies at its index of `OUT`, the other bytes
and the registers the command does not own are as before. -/
theorem encodeWalk_next (l : Law) (f : Fmt) (n : Nat) (s : State)
    (hroom : s.count.toNat + n ≤ s.outLen.toNat) (hpos : s.pos.toNat + n * f.bw < 2 ^ 32) :
    ∃ t, encodeWalk l f n s = .next t ∧ t.status = 0x01#32 ∧ t.count.toNat = s.count.toNat + n ∧
      t.pos.toNat = s.pos.toNat + n * f.bw ∧
      (∀ k < n, t.readByte .output (s.count.toNat + k) =
        compand l (decodeSample f (s.readBytes .input (s.pos.toNat + k * f.bw) f.bw))) ∧
      (∀ a, (a < s.count.toNat ∨ s.count.toNat + n ≤ a) → t.readByte .output a = s.readByte .output a) ∧
      t.input = s.input ∧ keepsHostSide s t ∧ t.draws = s.draws ∧ t.y1 = s.y1 ∧ t.y2 = s.y2 ∧
      t.xw = s.xw ∧ t.yw = s.yw ∧ t.ow = s.ow := by
  induction n generalizing s with
  | zero => exact ⟨s.finish, rfl, by simp, by simp, by simp, by simp, by simp, rfl, ⟨rfl, rfl, rfl, rfl, rfl, rfl, rfl⟩,
      rfl, rfl, rfl, rfl, rfl, rfl⟩
  | succ n ih =>
    have hbw := Fmt.bw_pos f
    have hsucc : (n + 1) * f.bw = n * f.bw + f.bw := by ring
    have hlt := s.outLen.isLt
    set c := s.encodeWindow l f with hc
    have hcount : (c.storeCode f.bw).count.toNat = s.count.toNat + 1 := by
      simp [hc, BitVec.toNat_add]; omega
    have hpos' : (c.storeCode f.bw).pos.toNat = s.pos.toNat + f.bw := by
      simp [hc, BitVec.toNat_add]; omega
    have hcode : c.code = compand l (decodeSample f (s.readBytes .input s.pos.toNat f.bw)) := by
      simp [hc]
    obtain ⟨t, ht, h1, h2, h3, h4, h5, h6, h7, h8, h9, h10, h11, h12, h13⟩ :=
      ih (c.storeCode f.bw) (by rw [hcount]; simp only [storeCode_outLen, hc, encodeWindow_outLen]; omega)
        (by rw [hpos']; omega)
    have hin : ∀ a, (c.storeCode f.bw).readByte .input a = s.readByte .input a := fun a => by simp [hc]
    have hccount : c.count = s.count := by simp [hc]
    refine ⟨t, ?_, h1, by omega, by rw [h3, hpos', hsucc]; omega, ?_, ?_, ?_, ?_, ?_, ?_, ?_, ?_, ?_, ?_⟩
    · have : ¬ c.outLen ≤ c.count := by
        simp only [hc, encodeWindow_outLen, encodeWindow_count, BitVec.not_le]
        simp only [BitVec.lt_def]; omega
      simp only [encodeWalk, ← hc, if_neg this, ht]
    · intro k hk
      cases k with
      | zero =>
        rw [h5 _ (by rw [hcount]; omega), Nat.add_zero, ← hccount, storeCode_readByte_self, hcode]; simp
      | succ k =>
        have h := h4 k (by omega)
        rw [hcount, hpos', show s.count.toNat + 1 + k = s.count.toNat + (k + 1) by omega,
          show s.pos.toNat + f.bw + k * f.bw = s.pos.toNat + (k + 1) * f.bw by ring] at h
        rw [h, readBytes_congr (t := s) (fun i _ => hin _)]
    · intro a ha
      rw [h5 a (by rw [hcount]; omega), storeCode_readByte_ne _ _ (by rw [hccount]; omega)]
      simp [hc]
    · rw [h6]; simp [hc]
    · simpa [keepsHostSide, hc] using h7
    · rw [h8]; simp [hc]
    · rw [h9]; simp [hc]
    · rw [h10]; simp [hc]
    · rw [h11]; simp [hc]
    · rw [h12]; simp [hc]
    · rw [h13]; simp [hc]

/-- The walk of `ENCODE` faults at the first store past `OUT_LEN`, having stored the bytes of the windows before it. -/
theorem encodeWalk_overrun (l : Law) (f : Fmt) (n : Nat) (s : State)
    (hc : s.count.toNat ≤ s.outLen.toNat) (hroom : s.outLen.toNat < s.count.toNat + n)
    (hpos : s.pos.toNat + n * f.bw < 2 ^ 32) :
    encodeWalk l f n s = .fault (.outputOverrun ((List.range s.outLen.toNat).map (fun a =>
      if a < s.count.toNat then s.readByte .output a
      else compand l (decodeSample f (s.readBytes .input (s.pos.toNat + (a - s.count.toNat) * f.bw) f.bw))))) := by
  induction n generalizing s with
  | zero => omega
  | succ n ih =>
    have hbw := Fmt.bw_pos f
    have hsucc : (n + 1) * f.bw = n * f.bw + f.bw := by ring
    have hlt := s.outLen.isLt
    set c := s.encodeWindow l f with hcd
    have hcode : c.code = compand l (decodeSample f (s.readBytes .input s.pos.toNat f.bw)) := by
      simp [hcd]
    have hccount : c.count = s.count := by simp [hcd]
    have hclen : c.outLen = s.outLen := by simp [hcd]
    by_cases h : s.outLen.toNat = s.count.toNat
    · have hle : c.outLen ≤ c.count := by rw [hccount, hclen, BitVec.le_def]; omega
      rw [encodeWalk, ← hcd, if_pos hle, hccount, State.readBytes, h]
      congr 2
      refine List.map_congr_left fun a ha => ?_
      have := List.mem_range.1 ha
      simp [this, hcd]
    · have hle : ¬ c.outLen ≤ c.count := by rw [hccount, hclen, BitVec.not_le, BitVec.lt_def]; omega
      have hcount : (c.storeCode f.bw).count.toNat = s.count.toNat + 1 := by
        simp [hcd, BitVec.toNat_add]; omega
      have hpos' : (c.storeCode f.bw).pos.toNat = s.pos.toNat + f.bw := by
        simp [hcd, BitVec.toNat_add]; omega
      have hlen : (c.storeCode f.bw).outLen = s.outLen := by simp [hcd]
      simp only [encodeWalk, ← hcd, if_neg hle]
      rw [ih (c.storeCode f.bw) (by rw [hcount, hlen]; omega) (by rw [hcount, hlen]; omega) (by rw [hpos']; omega)]
      rw [hlen, hcount, hpos']
      congr 2
      refine List.map_congr_left fun a ha => ?_
      have hin : ∀ a, (c.storeCode f.bw).readByte .input a = s.readByte .input a := fun a => by simp [hcd]
      rcases Nat.lt_trichotomy a s.count.toNat with hlt' | heq | hgt
      · rw [if_pos (by omega), if_pos hlt', storeCode_readByte_ne _ _ (by rw [hccount]; omega)]
        simp [hcd]
      · subst heq
        rw [if_pos (by omega), if_neg (by omega), ← hccount, storeCode_readByte_self, hcode]
        simp
      · rw [if_neg (by omega), if_neg (by omega), readBytes_congr (t := s) (fun i _ => hin _)]
        congr 3
        obtain ⟨d, rfl⟩ := Nat.exists_eq_add_of_lt hgt
        rw [show s.count.toNat + d + 1 - (s.count.toNat + 1) = d by omega,
          show s.count.toNat + d + 1 - s.count.toNat = d + 1 by omega]
        ring

/-! ## The stages of RESAMPLE -/

/-- The values `y[0], y[1], …` of R194: `zero` below position 3, the recurrence from there on. -/
def filterValue (A : LpfArith) (c : Coef) (f : Fmt) (xw : List Window) : Nat → LpfT
  | 0 => A.zero
  | 1 => A.zero
  | 2 => A.zero
  | m + 3 => lpfNext A c f (filterValue A c f xw (m + 2)) (filterValue A c f xw (m + 1)) (xw.getD (m + 3) [])

/-- The recurrence of R194 at a position `m ≥ 3`. -/
theorem filterValue_of_le (A : LpfArith) (c : Coef) (f : Fmt) (xw : List Window) {m : Nat} (h : 3 ≤ m) :
    filterValue A c f xw m =
      lpfNext A c f (filterValue A c f xw (m - 1)) (filterValue A c f xw (m - 2)) (xw.getD m []) := by
  obtain ⟨m, rfl⟩ := Nat.exists_eq_add_of_le' h
  rfl

/-- The boundary of R195: the first three values are zero. -/
theorem filterValue_of_lt (A : LpfArith) (c : Coef) (f : Fmt) (xw : List Window) {m : Nat} (h : m < 3) :
    filterValue A c f xw m = A.zero := by
  match m, h with
  | 0, _ => rfl
  | 1, _ => rfl
  | 2, _ => rfl

/-- The value `k` positions before position `m`, zero where there is none: what `Y1` (`k = 1`) and `Y2` (`k = 2`) hold. -/
def valueBefore (A : LpfArith) (c : Coef) (f : Fmt) (xw : List Window) (k m : Nat) : LpfT :=
  if m < k then A.zero else filterValue A c f xw (m - k)

/-- The loop of R194 started at position `m` yields the windows of the positions from `m` on, and at its end the last two
values. -/
theorem lpfLoop_eq (A : LpfArith) (c : Coef) (f : Fmt) (xw : List Window) (ws : List Window) (m : Nat)
    (hws : ws = xw.drop m) :
    lpfLoop A c f m (valueBefore A c f xw 1 m) (valueBefore A c f xw 2 m) ws =
      ((List.range ws.length).map (fun i =>
          if m + i < 3 then List.replicate f.bw 0#8 else (A.pack f (filterValue A c f xw (m + i))).toList),
        valueBefore A c f xw 1 (m + ws.length), valueBefore A c f xw 2 (m + ws.length)) := by
  induction ws generalizing m with
  | nil => simp [lpfLoop]
  | cons w ws ih =>
    have hw : xw.getD m [] = w := by
      have := congrArg (fun l => l.getD 0 []) hws
      simpa using this.symm
    have hy : (if m < 3 then A.zero else lpfNext A c f (valueBefore A c f xw 1 m) (valueBefore A c f xw 2 m) w) =
        filterValue A c f xw m := by
      by_cases h : m < 3
      · rw [if_pos h, filterValue_of_lt A c f xw h]
      · rw [if_neg h, filterValue_of_le A c f xw (by omega), hw, valueBefore, valueBefore, if_neg (by omega),
          if_neg (by omega)]
    have hb1 : valueBefore A c f xw 1 (m + 1) = filterValue A c f xw m := by simp [valueBefore]
    have hb2 : valueBefore A c f xw 2 (m + 1) = valueBefore A c f xw 1 m := by
      unfold valueBefore
      by_cases h : m < 1
      · rw [if_pos (by omega), if_pos h]
      · rw [if_neg (by omega), if_neg h]; congr 1
    have := ih (m + 1) (by rw [← List.drop_drop, ← hws]; rfl)
    rw [hb1, hb2] at this
    simp only [lpfLoop, hy, this]
    simp only [List.length_cons, List.range_succ_eq_map, List.map_cons, List.map_map, Nat.add_zero,
      show ∀ i, m + 1 + i = m + (i + 1) by omega]
    rfl

/-- What `LPF.*` at a filtered rate leaves in `yw`, `Y1` and `Y2`. -/
theorem runLpf_filt (A : LpfArith) (C : FiltRate → Coef) (s : State) (q : FiltRate) (f : Fmt) :
    s.runLpf A C (.filt q) f =
      { s with
        yw := (List.range s.xw.length).map (fun i =>
          if i < 3 then List.replicate f.bw 0#8 else (A.pack f (filterValue A (C q) f s.xw i)).toList),
        y1 := valueBefore A (C q) f s.xw 1 s.xw.length,
        y2 := valueBefore A (C q) f s.xw 2 s.xw.length } := by
  have := lpfLoop_eq A (C q) f s.xw s.xw 0 rfl
  have h1 : valueBefore A (C q) f s.xw 1 0 = A.zero := rfl
  have h2 : valueBefore A (C q) f s.xw 2 0 = A.zero := rfl
  simp only [h1, h2, Nat.zero_add] at this
  simp [State.runLpf, this]

@[simp] theorem runLpf_r8000 (A : LpfArith) (C : FiltRate → Coef) (s : State) (f : Fmt) :
    s.runLpf A C .r8000 f = { s with yw := s.xw } := rfl

@[simp] theorem runLpf_yw_length (A : LpfArith) (C : FiltRate → Coef) (s : State) (r : Rate) (f : Fmt) :
    (s.runLpf A C r f).yw.length = s.xw.length := by
  rcases r with _ | q
  · rfl
  · simp [runLpf_filt]

/-- A filtered window has the format's width if the windows read have it. -/
theorem runLpf_yw_width (A : LpfArith) (C : FiltRate → Coef) (s : State) (r : Rate) (f : Fmt)
    (hx : ∀ w ∈ s.xw, w.length = f.bw) : ∀ w ∈ (s.runLpf A C r f).yw, w.length = f.bw := by
  rcases r with _ | q
  · exact hx
  · intro w hw
    simp only [runLpf_filt, List.mem_map] at hw
    obtain ⟨i, -, rfl⟩ := hw
    split <;> simp

@[simp] theorem keepEvery_length (S : Nat) (yw : List Window) : (keepEvery S yw).length = keptCount S yw.length := by
  simp [keepEvery]

theorem stride_pos (r t : Rate) : 0 < stride r t := by unfold stride; omega

/-- Every kept position is a position (R207). -/
theorem kept_position_lt {S N k : Nat} (h : k < keptCount S N) : k * S < N := by
  unfold keptCount at h
  split at h
  · omega
  · have h1 : k * S ≤ (N - 1) / S * S := Nat.mul_le_mul_right _ (by omega)
    have h2 := Nat.div_mul_le_self (N - 1) S
    omega

theorem keptCount_le {S N : Nat} : keptCount S N ≤ N := by
  unfold keptCount
  split
  · omega
  · have := Nat.div_le_self (N - 1) S
    omega

theorem keepEvery_getElem? {S k : Nat} {yw : List Window} (h : k < keptCount S yw.length) :
    (keepEvery S yw)[k]? = yw[k * S]? := by
  have hlt := kept_position_lt h
  simp [keepEvery, h, hlt]

theorem keepEvery_mem {S : Nat} {yw : List Window} {w : Window} (h : w ∈ keepEvery S yw) : w ∈ yw := by
  simp only [keepEvery, List.mem_map, List.mem_range] at h
  obtain ⟨k, hk, rfl⟩ := h
  have hlt := kept_position_lt hk
  simp [hlt]

/-! ## The stores of RESAMPLE -/

theorem freeWindows_readByte_out (s : State) {sp sp' : Space} {bw k n i : Nat}
    (h : sp' ≠ sp ∨ i < k * bw ∨ k * bw + (n - k) * bw ≤ i) :
    (s.freeWindows sp bw k n).readByte sp' i = s.readByte sp' i := by
  have := readByte_writeBytes_out s (sp := sp) (sp' := sp') (a := k * bw) (i := i)
    (bs := (List.range ((n - k) * bw)).map (fun i => Config.freedByte s.draws (k * bw + i))) (by simpa using h)
  rw [← this]
  cases sp' <;> rfl

/-- What the stores of `RESAMPLE` leave in the buffers: the kept windows at the front of the destination, its bytes beyond
the `N` windows and the other buffer as before. -/
theorem storeKept_readByte (s : State) (f : Fmt) (sp : Space) (hw : ∀ w ∈ s.ow, w.length = f.bw)
    (hk : s.ow.length ≤ s.windowCount f.bw) :
    (∀ k i (h : k < s.ow.length), i < f.bw → (s.storeKept f sp).readByte sp (k * f.bw + i) = (s.ow[k]).getD i 0#8) ∧
    (∀ sp' a, (sp' ≠ sp ∨ s.windowCount f.bw * f.bw ≤ a) → (s.storeKept f sp).readByte sp' a = s.readByte sp' a) := by
  have hread : ∀ sp' a, (s.storeKept f sp).readByte sp' a =
      ((s.storeWindows sp f.bw 0 s.ow).freeWindows sp f.bw s.ow.length (s.windowCount f.bw)).readByte sp' a := by
    intro sp' a; cases sp' <;> rfl
  have hsum : s.ow.length * f.bw + (s.windowCount f.bw - s.ow.length) * f.bw = s.windowCount f.bw * f.bw := by
    rw [← Nat.add_mul]; congr 1; omega
  constructor
  · intro k i h hi
    have hin := window_inside (bw := f.bw) h
    rw [hread, freeWindows_readByte_out _ (.inr (.inl (by omega)))]
    have := readByte_storeWindows_in s (sp := sp) (k := 0) hw h hi
    rwa [Nat.zero_add] at this
  · intro sp' a h
    rw [hread, freeWindows_readByte_out _ (by rw [hsum]; tauto), readByte_storeWindows_out s hw]
    rcases h with h | h
    · exact .inl h
    · right; right
      rw [Nat.zero_add]
      exact le_trans (Nat.mul_le_mul_right _ hk) h

@[simp] theorem storeKept_size (s : State) (f : Fmt) (sp sp' : Space) :
    ((s.storeKept f sp).buffer sp').size = (s.buffer sp').size := by cases sp <;> cases sp' <;> rfl

end Sys2Proof.Machine
end

