-- ==== Sys2Proof/Laws/PerInstr.lean ====
section
/-! SUPPORT. Sys2Proof/Laws/PerInstr.lean: one lemma per instruction: the word the encoder writes for it keeps the reserved
field of `CW` at 0 and names a command that is not the reserved one (30_encoding.md R80, R90 items 1 and 2). -/

namespace Sys2Proof.Laws.CommandBits

/-- The word of an instruction has `CW[31:18] = 0` and `CMD` not 3 (R90). -/
abbrev Statement (i : Instr) : Prop := cwReserved (encode i) = 0#14 ∧ cwCmd (encode i) ≠ 3#2

/-- The reserved field of a word built from fields is 0, and its `CMD` is the one given. -/
theorem commandWord_bits (ip : BitVec 1) (t r : BitVec 4) (fm : BitVec 6) (la : BitVec 1) (c : BitVec 2) :
    cwReserved (commandWord ip t r fm la c) = 0#14 ∧ cwCmd (commandWord ip t r fm la c) = c := by
  have := ip.isLt; have := t.isLt; have := r.isLt; have := fm.isLt; have := la.isLt; have := c.isLt
  simp only [commandWord, cwReserved, cwCmd]
  constructor <;> (apply BitVec.eq_of_toNat_eq; simp [Nat.shiftRight_eq_div_pow]; omega)

/-- The same with `CMD` = 2, the commands `RESAMPLE`. -/
theorem resample_bits (ip : BitVec 1) (t r : BitVec 4) (fm : BitVec 6) (la : BitVec 1) :
    cwReserved (commandWord ip t r fm la 2#2) = 0#14 ∧ cwCmd (commandWord ip t r fm la 2#2) ≠ 3#2 := by
  obtain ⟨h1, h2⟩ := commandWord_bits ip t r fm la 2#2
  exact ⟨h1, by rw [h2]; decide⟩

theorem nop (ignored : BitVec 16) : Statement (.nop ignored) := by
  have h := ignored.isLt
  have h1 : cwReserved (encode (.nop ignored)) = 0#14 := by
    apply BitVec.eq_of_toNat_eq; simp [encode, cwReserved, Nat.shiftRight_eq_div_pow]; omega
  have h2 : cwCmd (encode (.nop ignored)) = 0#2 := by
    apply BitVec.eq_of_toNat_eq; simp [encode, cwCmd]
  exact ⟨h1, by rw [h2]; decide⟩

theorem encode (law : Law) (fmt : Fmt) (ignored : BitVec 9) : Statement (.encode law fmt ignored) := by
  have := ignored.isLt; have := fmt.code.isLt; have := law.code.isLt
  have h1 : cwReserved (Sys2Proof.encode (.encode law fmt ignored)) = 0#14 := by
    apply BitVec.eq_of_toNat_eq; simp [Sys2Proof.encode, cwReserved, Nat.shiftRight_eq_div_pow]; omega
  have h2 : cwCmd (Sys2Proof.encode (.encode law fmt ignored)) = 1#2 := by
    apply BitVec.eq_of_toNat_eq; simp [Sys2Proof.encode, cwCmd]; omega
  exact ⟨h1, by rw [h2]; decide⟩

theorem resample (fmt : Fmt) (rate target : Rate) (inplace : Bool) (ignored : BitVec 1) :
    Statement (.resample fmt rate target inplace ignored) := resample_bits _ _ _ _ _

theorem decS8 : Statement .decS8 := by decide
theorem decU8 : Statement .decU8 := by decide
theorem decS16be : Statement .decS16be := by decide
theorem decS16le : Statement .decS16le := by decide
theorem decU16be : Statement .decU16be := by decide
theorem decU16le : Statement .decU16le := by decide
theorem decS24be : Statement .decS24be := by decide
theorem decS24le : Statement .decS24le := by decide
theorem decU24be : Statement .decU24be := by decide
theorem decU24le : Statement .decU24le := by decide
theorem decS32be : Statement .decS32be := by decide
theorem decS32le : Statement .decS32le := by decide
theorem decU32be : Statement .decU32be := by decide
theorem decU32le : Statement .decU32le := by decide
theorem decF32be : Statement .decF32be := by decide
theorem decF32le : Statement .decF32le := by decide
theorem decF64be : Statement .decF64be := by decide
theorem decF64le : Statement .decF64le := by decide
theorem cmpMulaw : Statement .cmpMulaw := by decide
theorem cmpAlaw : Statement .cmpAlaw := by decide
theorem lpf8000 (fmt : Fmt) : Statement (.lpf8000 fmt) := resample_bits _ _ _ _ _
theorem lpf11025 (fmt : Fmt) : Statement (.lpf11025 fmt) := resample_bits _ _ _ _ _
theorem lpf16000 (fmt : Fmt) : Statement (.lpf16000 fmt) := resample_bits _ _ _ _ _
theorem lpf22050 (fmt : Fmt) : Statement (.lpf22050 fmt) := resample_bits _ _ _ _ _
theorem lpf32000 (fmt : Fmt) : Statement (.lpf32000 fmt) := resample_bits _ _ _ _ _
theorem lpf44100 (fmt : Fmt) : Statement (.lpf44100 fmt) := resample_bits _ _ _ _ _
theorem lpf48000 (fmt : Fmt) : Statement (.lpf48000 fmt) := resample_bits _ _ _ _ _
theorem lpf96000 (fmt : Fmt) : Statement (.lpf96000 fmt) := resample_bits _ _ _ _ _
theorem lpf192000 (fmt : Fmt) : Statement (.lpf192000 fmt) := resample_bits _ _ _ _ _
theorem decim (rate target : Rate) : Statement (.decim rate target) := resample_bits _ _ _ _ _

end Sys2Proof.Laws.CommandBits
end

