-- ==== Sys2Proof/Tests/Slice0.lean ====
section
/-! SUPPORT. Sys2Proof/Tests/Slice0.lean: the author's tests: ill-formed instructions are refused, words written out from
the spec's encodings decode, each instruction does what the vectors of 95_test_vectors.md say, and for every statement of
Obligations.lean that has hypotheses a concrete case meets them. Expected values are the spec's, never the model's. -/

open Sys2Proof Sys2Proof.Machine

namespace Sys2Proof.Tests

-- One theorem after another: the many small evaluations here would otherwise each hold a thread.
set_option Elab.async false

/-! ## Helpers -/

/-- An outcome that is a next state with a property. -/
def nextWith (o : Host.Outcome State Fault Refusal) (p : State → Bool) : Bool :=
  match o with
  | .next t => p t
  | .fault _ => false
  | .refused _ => false

/-- An outcome that is the given fault. -/
def faultsWith (o : Host.Outcome State Fault Refusal) (x : Fault) : Bool :=
  match o with
  | .next _ => false
  | .fault y => y == x
  | .refused _ => false

/-- A small state: the bytes of both buffers and the two length registers. -/
def bufs (inB outB : List Byte) (inLen outLen : Word) : State :=
  { (State.reset.writeBytes .input 0 inB).writeBytes .output 0 outB with inLen := inLen, outLen := outLen }

/-- A small state with a window in `WIN`. -/
def winState (w : Window) : State := { State.reset with win := mergeWin State.reset.win w }

/-- A small state with a sample in `SAMPLE`. -/
def sampleState (x : Int) : State := { State.reset with sample := BitVec.ofInt 16 x }

/-- `i` writes the sample `x` from the window `w`. -/
def decodesTo (i : Instr) (w : Window) (x : Int) : Bool :=
  nextWith (exec i (winState w)) (fun t => t.sample.toInt == x)

/-- `i` writes the byte `c` from the sample `x`. -/
def codesTo (i : Instr) (x : Int) (c : Byte) : Bool := nextWith (exec i (sampleState x)) (fun t => t.code == c)

/-- The state `s` with one pending action of the host. -/
def acting (s : State) (a : HostAction) : State := { s with pending := [a] }

/-- A small state whose two buffers have a real size of two bytes. -/
def twoBytes : State := { State.reset with input := ⟨2, []⟩, output := ⟨2, []⟩ }

/-- The sixteen bytes of V1 (95_test_vectors.md section 4). -/
def v1 : List Byte :=
  [0xE8, 0x03, 0xD0, 0x07, 0xB8, 0x0B, 0xA0, 0x0F, 0xA0, 0x0F, 0xA0, 0x0F, 0xC0, 0xE0, 0x64, 0x00]

/-- A state with four windows of two bytes in `xw` and `yw`. -/
def stages : State :=
  { State.reset with
    xw := [[1, 2], [3, 4], [5, 6], [7, 8]], yw := [[1, 2], [3, 4], [5, 6], [7, 8]] }

/-! ## WellFormed: an instruction no command word spells is refused, one per class -/

theorem test_wellFormed_command : (Instr.nop 5).wellFormed = true ∧ (Instr.encode .alaw .u8 0).wellFormed = true ∧
    (Instr.resample .s8 .r8000 .r8000 true 0).wellFormed = true := by decide
theorem test_illFormed_decoder : Instr.decS8.wellFormed = false := by decide
theorem test_illFormed_compander : Instr.cmpMulaw.wellFormed = false := by decide
theorem test_illFormed_filter : (Instr.lpf8000 .s8).wellFormed = false := by decide
theorem test_illFormed_decimator : (Instr.decim .r8000 .r8000).wellFormed = false := by decide

/-! ## Decoding: words written out bit by bit from R80, R82, R84, R86 (reserved, INPLACE, TARGET, RATE, FMT, LAW, CMD) -/

theorem test_decode_nop : decode 0b00000000000000_0_0000_0000_000000_0_00#32 = .ok (.nop 0) := by decide
theorem test_decode_nop_ignored : decode 0b00000000000000_1_1111_1111_111111_1_00#32 = .ok (.nop 0xFFFF) := by decide
theorem test_decode_encode : decode 0b00000000000000_0_0000_0000_010000_1_01#32 = .ok (.encode .alaw .u8 0) := by decide
theorem test_decode_resample : decode 0b00000000000000_1_0001_0101_000011_0_10#32 =
    .ok (.resample .s16le (.filt .r44100) (.filt .r11025) true 0) := by decide
theorem test_decode_refused : decode 0x00000181#32 = .error .reservedFormat ∧ decode 0x00000141#32 = .error .reservedFormat ∧
    decode 0x00040001#32 = .error .reservedBits ∧ decode 0x0000121A#32 = .error .reservedRate ∧
    decode 0x0001201A#32 = .error .reservedTarget ∧ decode 0x00000003#32 = .error .reservedCommand := by decide
theorem test_decodeTableWord : decodeTableWord 32 0x41A = some (.resample .s16le (.filt .r16000) .r8000 false 0) ∧
    decodeTableWord 32 0x3 = none ∧ decodeTableWord 8 0x111 = some (.encode .mulaw .s16be 0) := by decide

-- The micro-operations, by the fields that select them.
theorem test_select_decS8 : selectedMicroOps 0b000000_0_01#32 = [.decS8, .cmpMulaw] := by decide
theorem test_select_decU8 : selectedMicroOps 0b010000_0_01#32 = [.decU8, .cmpMulaw] := by decide
theorem test_select_decS16be : selectedMicroOps 0b000010_0_01#32 = [.decS16be, .cmpMulaw] := by decide
theorem test_select_decS16le : selectedMicroOps 0b000011_0_01#32 = [.decS16le, .cmpMulaw] := by decide
theorem test_select_decU16be : selectedMicroOps 0b010010_0_01#32 = [.decU16be, .cmpMulaw] := by decide
theorem test_select_decU16le : selectedMicroOps 0b010011_0_01#32 = [.decU16le, .cmpMulaw] := by decide
theorem test_select_decS24be : selectedMicroOps 0b000100_0_01#32 = [.decS24be, .cmpMulaw] := by decide
theorem test_select_decS24le : selectedMicroOps 0b000101_0_01#32 = [.decS24le, .cmpMulaw] := by decide
theorem test_select_decU24be : selectedMicroOps 0b010100_0_01#32 = [.decU24be, .cmpMulaw] := by decide
theorem test_select_decU24le : selectedMicroOps 0b010101_0_01#32 = [.decU24le, .cmpMulaw] := by decide
theorem test_select_decS32be : selectedMicroOps 0b000110_0_01#32 = [.decS32be, .cmpMulaw] := by decide
theorem test_select_decS32le : selectedMicroOps 0b000111_0_01#32 = [.decS32le, .cmpMulaw] := by decide
theorem test_select_decU32be : selectedMicroOps 0b010110_0_01#32 = [.decU32be, .cmpMulaw] := by decide
theorem test_select_decU32le : selectedMicroOps 0b010111_0_01#32 = [.decU32le, .cmpMulaw] := by decide
theorem test_select_decF32be : selectedMicroOps 0b100110_0_01#32 = [.decF32be, .cmpMulaw] := by decide
theorem test_select_decF32le : selectedMicroOps 0b100111_0_01#32 = [.decF32le, .cmpMulaw] := by decide
theorem test_select_decF64be : selectedMicroOps 0b101110_0_01#32 = [.decF64be, .cmpMulaw] := by decide
theorem test_select_decF64le : selectedMicroOps 0b101111_0_01#32 = [.decF64le, .cmpMulaw] := by decide
theorem test_select_cmpAlaw : selectedMicroOps 0b000000_1_01#32 = [.decS8, .cmpAlaw] := by decide
theorem test_select_lpf8000 : selectedMicroOps 0b0000_000010_0_10#32 = [.lpf8000 .s16be, .decim .r8000 .r8000] := by decide
theorem test_select_lpf11025 : selectedMicroOps 0b0001_000010_0_10#32 = [.lpf11025 .s16be, .decim (.filt .r11025) .r8000] := by decide
theorem test_select_lpf16000 : selectedMicroOps 0b0010_000010_0_10#32 = [.lpf16000 .s16be, .decim (.filt .r16000) .r8000] := by decide
theorem test_select_lpf22050 : selectedMicroOps 0b0011_000010_0_10#32 = [.lpf22050 .s16be, .decim (.filt .r22050) .r8000] := by decide
theorem test_select_lpf32000 : selectedMicroOps 0b0100_000010_0_10#32 = [.lpf32000 .s16be, .decim (.filt .r32000) .r8000] := by decide
theorem test_select_lpf44100 : selectedMicroOps 0b0101_000010_0_10#32 = [.lpf44100 .s16be, .decim (.filt .r44100) .r8000] := by decide
theorem test_select_lpf48000 : selectedMicroOps 0b0110_000010_0_10#32 = [.lpf48000 .s16be, .decim (.filt .r48000) .r8000] := by decide
theorem test_select_lpf96000 : selectedMicroOps 0b0111_000010_0_10#32 = [.lpf96000 .s16be, .decim (.filt .r96000) .r8000] := by decide
theorem test_select_lpf192000 : selectedMicroOps 0b1000_000010_0_10#32 = [.lpf192000 .s16be, .decim (.filt .r192000) .r8000] := by decide
theorem test_select_decim : selectedMicroOps 0b1000_0010_000000_0_10#32 =
    [.lpf16000 .s8, .decim (.filt .r16000) (.filt .r192000)] := by decide

/-! ## The sample decoder: the rows of 95_test_vectors.md section 2 -/

theorem test_decS8 : ([([0x00], 0), ([0x04], 1024), ([0x7F], 32512), ([0x80], -32768), ([0xFF], -256)] : List (Window × Int)).all (fun p => decodesTo .decS8 p.1 p.2) = true := by
  decide +kernel
theorem test_decU8 : ([([0x00], -32768), ([0x7F], -256), ([0x80], 0), ([0x84], 1024), ([0xFF], 32512)] : List (Window × Int)).all (fun p => decodesTo .decU8 p.1 p.2) = true := by
  decide +kernel
theorem test_decS16be : ([([0x03, 0xE8], 1000), ([0xFC, 0x18], -1000), ([0x80, 0x00], -32768), ([0x7F, 0xFF], 32767)] : List (Window × Int)).all (fun p => decodesTo .decS16be p.1 p.2) = true := by
  decide +kernel
theorem test_decS16le : ([([0xE8, 0x03], 1000), ([0x18, 0xFC], -1000), ([0x03, 0xE8], -6141)] : List (Window × Int)).all (fun p => decodesTo .decS16le p.1 p.2) = true := by
  decide +kernel
theorem test_decU16be : ([([0x00, 0x00], -32768), ([0x80, 0x00], 0), ([0x83, 0xE8], 1000), ([0xFF, 0xFF], 32767)] : List (Window × Int)).all (fun p => decodesTo .decU16be p.1 p.2) = true := by
  decide +kernel
theorem test_decU16le : ([([0x18, 0x7C], -1000), ([0x00, 0x80], 0), ([0x00, 0x00], -32768), ([0x00, 0x80], 0),
    ([0xE8, 0x83], 1000), ([0xFF, 0xFF], 32767)] : List (Window × Int)).all (fun p => decodesTo .decU16le p.1 p.2) = true := by
  decide +kernel
theorem test_decS24be : ([([0x03, 0xE8, 0xFF], 1000), ([0xFC, 0x18, 0x00], -1000), ([0xFF, 0xFF, 0xFF], -1),
    ([0x00, 0x00, 0xFF], 0), ([0x7F, 0xFF, 0xFF], 32767), ([0x80, 0x00, 0x00], -32768)] : List (Window × Int)).all (fun p => decodesTo .decS24be p.1 p.2) = true := by
  decide +kernel
theorem test_decS24le : ([([0xFF, 0xE8, 0x03], 1000), ([0x00, 0x18, 0xFC], -1000), ([0x00, 0x00, 0x80], -32768),
    ([0xFF, 0xFF, 0x7F], 32767)] : List (Window × Int)).all (fun p => decodesTo .decS24le p.1 p.2) = true := by
  decide +kernel
theorem test_decU24be : ([([0x00, 0x00, 0x00], -32768), ([0x80, 0x00, 0x00], 0), ([0x83, 0xE8, 0x55], 1000),
    ([0xFF, 0xFF, 0xFF], 32767)] : List (Window × Int)).all (fun p => decodesTo .decU24be p.1 p.2) = true := by
  decide +kernel
theorem test_decU24le : ([([0x55, 0x18, 0x7C], -1000), ([0x00, 0x00, 0x00], -32768), ([0x00, 0x00, 0x80], 0),
    ([0x55, 0xE8, 0x83], 1000), ([0xFF, 0xFF, 0xFF], 32767)] : List (Window × Int)).all (fun p => decodesTo .decU24le p.1 p.2) = true := by
  decide +kernel
theorem test_decS32be : ([([0x03, 0xE8, 0x12, 0x34], 1000), ([0xFF, 0xFF, 0xFF, 0xFF], -1), ([0x00, 0x00, 0xFF, 0xFF], 0),
    ([0x80, 0x00, 0x00, 0x00], -32768), ([0x7F, 0xFF, 0xFF, 0xFF], 32767)] : List (Window × Int)).all (fun p => decodesTo .decS32be p.1 p.2) = true := by
  decide +kernel
theorem test_decS32le : ([([0x34, 0x12, 0x18, 0xFC], -1000), ([0xFF, 0xFF, 0xFF, 0x7F], 32767),
    ([0x00, 0x00, 0x00, 0x80], -32768)] : List (Window × Int)).all (fun p => decodesTo .decS32le p.1 p.2) = true := by
  decide +kernel
theorem test_decU32be : ([([0x00, 0x00, 0x00, 0x00], -32768), ([0x80, 0x00, 0x00, 0x00], 0),
    ([0x83, 0xE8, 0x00, 0x01], 1000), ([0xFF, 0xFF, 0xFF, 0xFF], 32767)] : List (Window × Int)).all (fun p => decodesTo .decU32be p.1 p.2) = true := by
  decide +kernel
theorem test_decU32le : ([([0xFF, 0xFF, 0x18, 0x7C], -1000), ([0x00, 0x00, 0x00, 0x00], -32768),
    ([0x00, 0x00, 0x00, 0x80], 0), ([0x01, 0x00, 0xE8, 0x83], 1000),
    ([0xFF, 0xFF, 0xFF, 0xFF], 32767)] : List (Window × Int)).all (fun p => decodesTo .decU32le p.1 p.2) = true := by
  decide +kernel
theorem test_decF32be : ([([0x00, 0x00, 0x00, 0x00], 0), ([0x80, 0x00, 0x00, 0x00], 0), ([0x3F, 0x80, 0x00, 0x00], 32767),
    ([0xBF, 0x80, 0x00, 0x00], -32767), ([0x3F, 0x00, 0x00, 0x00], 16384),
    ([0xBF, 0x00, 0x00, 0x00], -16384), ([0x3E, 0x80, 0x00, 0x00], 8192),
    ([0x3C, 0xFA, 0x01, 0xF4], 1000), ([0x3E, 0x72, 0xA5, 0xE5], 7764),
    ([0x38, 0x40, 0x01, 0x80], 1), ([0x40, 0x00, 0x00, 0x00], 32767),
    ([0xC0, 0x00, 0x00, 0x00], -32768), ([0x3F, 0x80, 0x00, 0xA8], 32767),
    ([0xBF, 0x80, 0x00, 0xA8], -32768), ([0x00, 0x01, 0x16, 0xC2], 0),
    ([0x7F, 0x80, 0x00, 0x00], 32767), ([0xFF, 0x80, 0x00, 0x00], -32768)] : List (Window × Int)).all (fun p => decodesTo .decF32be p.1 p.2) = true := by
  decide +kernel
theorem test_decF32le : ([([0x00, 0x00, 0x00, 0x3F], 16384), ([0x00, 0x00, 0x80, 0xBF], -32767),
    ([0x00, 0x00, 0x00, 0x00], 0), ([0x00, 0x00, 0x00, 0x80], 0),
    ([0x00, 0x00, 0x80, 0x3F], 32767), ([0x00, 0x00, 0x80, 0xBF], -32767),
    ([0x00, 0x00, 0x00, 0x3F], 16384), ([0x00, 0x00, 0x00, 0xBF], -16384),
    ([0x00, 0x00, 0x80, 0x3E], 8192), ([0xF4, 0x01, 0xFA, 0x3C], 1000),
    ([0xE5, 0xA5, 0x72, 0x3E], 7764), ([0x80, 0x01, 0x40, 0x38], 1),
    ([0x00, 0x00, 0x00, 0x40], 32767), ([0x00, 0x00, 0x00, 0xC0], -32768),
    ([0xA8, 0x00, 0x80, 0x3F], 32767), ([0xA8, 0x00, 0x80, 0xBF], -32768),
    ([0xC2, 0x16, 0x01, 0x00], 0), ([0x00, 0x00, 0x80, 0x7F], 32767),
    ([0x00, 0x00, 0x80, 0xFF], -32768)] : List (Window × Int)).all (fun p => decodesTo .decF32le p.1 p.2) = true := by
  decide +kernel
theorem test_decF64be : ([([0x3F, 0xF0, 0x00, 0x00, 0x00, 0x00, 0x00, 0x00], 32767),
    ([0xBF, 0xF0, 0x00, 0x00, 0x00, 0x00, 0x00, 0x00], -32767),
    ([0x3F, 0xE0, 0x00, 0x00, 0x00, 0x00, 0x00, 0x00], 16384),
    ([0xBF, 0xE0, 0x00, 0x00, 0x00, 0x00, 0x00, 0x00], -16384),
    ([0x3F, 0x9F, 0x40, 0x3E, 0x80, 0x7D, 0x00, 0xFA], 1000),
    ([0xBF, 0x9F, 0x40, 0x3E, 0x80, 0x7D, 0x00, 0xFA], -1000),
    ([0x40, 0x08, 0x00, 0x00, 0x00, 0x00, 0x00, 0x00], 32767),
    ([0xFF, 0xF0, 0x00, 0x00, 0x00, 0x00, 0x00, 0x00], -32768)] : List (Window × Int)).all (fun p => decodesTo .decF64be p.1 p.2) = true := by
  decide +kernel
theorem test_decF64le : ([([0x00, 0x00, 0x00, 0x00, 0x00, 0x00, 0xE0, 0xBF], -16384),
    ([0x00, 0x00, 0x00, 0x00, 0x00, 0x00, 0xF0, 0x3F], 32767),
    ([0x00, 0x00, 0x00, 0x00, 0x00, 0x00, 0xF0, 0xBF], -32767),
    ([0x00, 0x00, 0x00, 0x00, 0x00, 0x00, 0xE0, 0x3F], 16384),
    ([0x00, 0x00, 0x00, 0x00, 0x00, 0x00, 0xE0, 0xBF], -16384),
    ([0xFA, 0x00, 0x7D, 0x80, 0x3E, 0x40, 0x9F, 0x3F], 1000),
    ([0xFA, 0x00, 0x7D, 0x80, 0x3E, 0x40, 0x9F, 0xBF], -1000),
    ([0x00, 0x00, 0x00, 0x00, 0x00, 0x00, 0x08, 0x40], 32767),
    ([0x00, 0x00, 0x00, 0x00, 0x00, 0x00, 0xF0, 0xFF], -32768)] : List (Window × Int)).all (fun p => decodesTo .decF64le p.1 p.2) = true := by
  decide +kernel

-- NaN gives NAN_SAMPLE, sign and payload ignored.
theorem test_decF32be_nan : decodeSample .f32be [0xFF, 0xC0, 0x00, 0x01] = Config.nanSample := rfl
theorem test_decF64be_nan : decodeSample .f64be [0x7F, 0xF8, 0, 0, 0, 0, 0, 0] = Config.nanSample := rfl

/-! ## The companders: the corners of 95_test_vectors.md section 3 -/

theorem test_cmpMulaw : ([(0, 0xFF), (1, 0xFF), (3, 0xFF), (4, 0xFE), (15, 0xFD), (16, 0xFD), (-1, 0x7F), (-4, 0x7F),
    (-5, 0x7E), (123, 0xF0), (124, 0xEF), (127, 0xEF), (128, 0xEF), (-128, 0x6F), (-129, 0x6F),
    (255, 0xE7), (256, 0xE7), (379, 0xE0), (380, 0xDF), (511, 0xDB), (512, 0xDB), (1000, 0xCE),
    (-1000, 0x4E), (2250, 0xBD), (-4027, 0x2F), (4091, 0xAF), (8000, 0xA0), (-8000, 0x20),
    (16383, 0x8F), (16384, 0x8F), (-16384, 0x0F), (31611, 0x81), (31612, 0x80), (31743, 0x80),
    (31744, 0x80), (32635, 0x80), (32636, 0x80), (32767, 0x80), (-32767, 0x00), (-32768, 0x00)] :
    List (Int × Byte)).all (fun p => codesTo .cmpMulaw p.1 p.2) = true := by decide +kernel
theorem test_cmpAlaw : ([(0, 0xD5), (1, 0xD5), (3, 0xD5), (4, 0xD5), (15, 0xD5), (16, 0xD4), (-1, 0x55), (-4, 0x55),
    (-5, 0x55), (123, 0xD2), (124, 0xD2), (127, 0xD2), (128, 0xDD), (-128, 0x52), (-129, 0x5D),
    (255, 0xDA), (256, 0xC5), (379, 0xC2), (380, 0xC2), (511, 0xCA), (512, 0xF5), (1000, 0xFA),
    (-1000, 0x7A), (2250, 0x94), (-4027, 0x1A), (4091, 0x9A), (8000, 0x8A), (-8000, 0x0A),
    (16383, 0xBA), (16384, 0xA5), (-16384, 0x3A), (31611, 0xAB), (31612, 0xAB), (31743, 0xAB),
    (31744, 0xAA), (32635, 0xAA), (32636, 0xAA), (32767, 0xAA), (-32767, 0x2A), (-32768, 0x2A)] :
    List (Int × Byte)).all (fun p => codesTo .cmpAlaw p.1 p.2) = true := by decide +kernel

/-! ## The filter and the decimator -/

-- R198, its example: the windows pass.
theorem test_lpf8000 : nextWith (exec (.lpf8000 .s16le) { State.reset with xw := [[0xE8, 0x03], [0x18, 0xFC]] })
    (fun t => t.yw == [[0xE8, 0x03], [0x18, 0xFC]]) = true := by decide
theorem test_lpf11025 : nextWith (exec (.lpf11025 .u16be) stages)
    (fun t => t.yw.take 3 == [[0, 0], [0, 0], [0, 0]] && t.yw.length == 4) = true := by decide
theorem test_lpf16000 : nextWith (exec (.lpf16000 .u16be) stages)
    (fun t => t.yw.take 3 == [[0, 0], [0, 0], [0, 0]] && t.yw.length == 4) = true := by decide
theorem test_lpf22050 : nextWith (exec (.lpf22050 .u16be) stages)
    (fun t => t.yw.take 3 == [[0, 0], [0, 0], [0, 0]] && t.yw.length == 4) = true := by decide
theorem test_lpf32000 : nextWith (exec (.lpf32000 .u16be) stages)
    (fun t => t.yw.take 3 == [[0, 0], [0, 0], [0, 0]] && t.yw.length == 4) = true := by decide
theorem test_lpf44100 : nextWith (exec (.lpf44100 .u16be) stages)
    (fun t => t.yw.take 3 == [[0, 0], [0, 0], [0, 0]] && t.yw.length == 4) = true := by decide
theorem test_lpf48000 : nextWith (exec (.lpf48000 .u16be) stages)
    (fun t => t.yw.take 3 == [[0, 0], [0, 0], [0, 0]] && t.yw.length == 4) = true := by decide
theorem test_lpf96000 : nextWith (exec (.lpf96000 .u16be) stages)
    (fun t => t.yw.take 3 == [[0, 0], [0, 0], [0, 0]] && t.yw.length == 4) = true := by decide
theorem test_lpf192000 : nextWith (exec (.lpf192000 .u16be) stages)
    (fun t => t.yw.take 3 == [[0, 0], [0, 0], [0, 0]] && t.yw.length == 4) = true := by decide

/-- The recurrence under the reference arithmetic: the vectors V2 and V3 of 95_test_vectors.md section 4. -/
theorem test_recurrence_v2 : (lpfLoop refArith (testCoef .r16000) .u8 0 0 0
    [[0x0A], [0x14], [0x1E], [0xC8], [0xFF], [0xFF], [0x00], [0x08]]).1 =
    [[0x00], [0x00], [0x00], [0x64], [0x8C], [0x85], [0x00], [0x00]] := by decide +kernel
theorem test_recurrence_v3 : (lpfLoop refArith (testCoef .r96000) .s16be 0 0 0
    [[0, 0], [0, 0], [0, 0], [0x7F, 0xFF], [0x7F, 0xFF], [0x7F, 0xFF], [0x80, 0x00], [0x80, 0x00]]).1 =
    [[0, 0], [0, 0], [0, 0], [0x40, 0x00], [0x47, 0xFF], [0x40, 0xFF], [0xBF, 0x20], [0xAF, 0xC4]] := by decide +kernel

-- R207, its example: N = 4, S = 2 keeps 0 and 2; and the rows of section 4 with their K.
theorem test_decim : nextWith (exec (.decim (.filt .r16000) .r8000) stages) (fun t => t.ow == [[1, 2], [5, 6]]) = true := by
  decide
theorem test_kept_counts : (keptCount (stride (.filt .r16000) .r8000) 7, keptCount (stride (.filt .r48000) .r8000) 8,
    keptCount (stride (.filt .r44100) .r8000) 11, keptCount (stride (.filt .r192000) .r8000) 24,
    keptCount (stride (.filt .r192000) .r8000) 25, keptCount (stride (.filt .r22050) (.filt .r16000)) 5,
    keptCount (stride .r8000 .r8000) 0) = (4, 2, 3, 1, 2, 5, 0) := by decide

/-! ## The commands: rows of 95_test_vectors.md section 5 -/

/-- What a launch leaves: the first bytes of a buffer, `COUNT`, `STATUS`. -/
def leaves (o : Host.Outcome State Fault Refusal) (sp : Space) (bs : List Byte) (count status : Word) : Bool :=
  nextWith o (fun t => t.readBytes sp 0 bs.length == bs && t.count == count && t.status == status)

theorem test_encode_rows :
    leaves (launch 0x1D#32 (bufs [0xE8, 0x03, 0x18, 0xFC, 0x7F] [0xAA, 0xAA, 0xAA] 5 3)) .output [0xFA, 0x7A, 0xAA] 2 0x01 = true ∧
    leaves (launch 0x1D#32 (bufs [0xE8, 0x03, 0x18, 0xFC, 0x7F] [0xAA] 5 1)) .output [0xAA] 0 0x13 = true ∧
    leaves (launch 0x11#32 (bufs [0x03] [] 1 0)) .output [] 0 0x01 = true ∧
    leaves (launch 0x29#32 (bufs [0xFF, 0xE8, 0x03, 0x00, 0x18, 0xFC, 0x00, 0x00, 0x80] [0xAA, 0xAA, 0xAA, 0xAA] 9 4))
      .output [0xCE, 0x4E, 0x00, 0xAA] 3 0x01 = true ∧
    leaves (launch 0x01#32 (bufs [0x00, 0x7F, 0x80, 0xFF, 0x04] [] 5 5)) .output [0xFF, 0x80, 0x00, 0x67, 0xCD] 5 0x01 = true := by
  decide +kernel
theorem test_encode_overrun :
    faultsWith (launch 0x85#32 (bufs [0x00, 0x80, 0xFF, 0x84] [] 4 2)) (.outputOverrun [0x2A, 0xD5]) = true := by
  decide +kernel

theorem test_resample_rows :
    leaves (resampleRef .s16le (.filt .r16000) .r8000 false (bufs v1 [] 16 16)) .output
      [0x00, 0x00, 0x00, 0x00, 0xCA, 0x08, 0x45, 0xF0] 8 0x01 = true ∧
    leaves (resampleRef .s16le (.filt .r48000) .r8000 true (bufs v1 [] 16 0)) .input [0x00, 0x00, 0x45, 0xF0] 4 0x01 = true ∧
    leaves (resampleRef .s16le (.filt .r11025) (.filt .r11025) false (bufs v1 [] 16 16)) .output
      [0x00, 0x00, 0x00, 0x00, 0x00, 0x00, 0xD0, 0x07, 0xCA, 0x08, 0xEF, 0x07, 0x45, 0xF0, 0x3D, 0xFD] 16 0x01 = true ∧
    leaves (launch 0xC01A#32 (bufs v1 [] 16 16)) .output v1 16 0x01 = true := by decide +kernel
theorem test_resample_mismatch :
    faultsWith (launch 0x41A#32 (bufs v1 [] 16 8)) .resampleSizeMismatch = true := by decide +kernel

/-- The example of R240. -/
theorem test_nop : nextWith (launch 0#32 { State.reset with count := 2, status := 0x01 })
    (fun t => t.count == 2 && t.status == 0x01) = true := by decide

/-! ## The hypotheses of the statements are met

One theorem per statement of Obligations.lean that has hypotheses: a concrete case that meets them all, for each clause. -/

theorem witness_StepKeepsTheInvariant : StateInv State.reset ∧ StateInv (acting (bufs [1, 2] [9] 2 1) (.writeReg 0 0x11#32)) ∧
    nextWith (step (acting (bufs [1, 2] [9] 2 1) (.writeReg 0 0x11#32))) (fun _ => true) = true := by decide +kernel
theorem witness_StepRunsTheDecodedCommand : (acting State.reset (.writeReg 0 0x11#32)).pending = [.writeReg 0 0x11#32] ∧
    decode 0x11#32 = .ok (.encode .mulaw .s16be 0) ∧ decodeTableWord 32 0x11 = some (.encode .mulaw .s16be 0) := by decide
theorem witness_HostReadsAndWritesSixRegisters : (acting State.reset (.readReg 5)).pending = [.readReg 5] ∧
    (∀ n : Fin 6, (acting State.reset (.writeReg n 7)).pending = [.writeReg n 7]) ∧ (3 : Fin 6) ≤ 3 ∧ (3 : Fin 6) ≤ 5 := by decide
theorem witness_IdleStepKeepsTheState : State.reset.pending = [] := by decide
theorem witness_DecodeOfEncodeIsTheCommand : (Instr.nop 0xFFFF).wellFormed = true ∧ (Instr.encode .alaw .f64le 0x1FF).wellFormed = true ∧
    (Instr.resample .f64le (.filt .r192000) (.filt .r192000) true 1).wellFormed = true := by decide
theorem witness_EncodeOfDecodeIsTheWord : decode 0x0003FFFC#32 = .ok (.nop 0xFFFF) ∧ decode 0x0003FE01#32 = .ok (.encode .mulaw .s8 0x1FF) ∧
    decode 0x00031002#32 = .ok (.resample .s8 (.filt .r192000) (.filt .r192000) true 0) := by decide
theorem witness_ReservedWordsAreExactlyRefused : (acting State.reset (.writeReg 0 0x40000#32)).pending = [.writeReg 0 0x40000#32] ∧
    decode 0x40000#32 = .error .reservedBits ∧ decode 0x3#32 = .error .reservedCommand ∧
    decode 0x9#32 = .error .reservedFormat ∧ decode 0x1202#32 = .error .reservedRate ∧
    decode 0x12002#32 = .error .reservedTarget := by decide
theorem witness_IgnoredFieldsDoNotMatter : (cwReserved 0x1E11#32 = 0 ∧ cwReserved 0x11#32 = 0 ∧ cwCmd 0x1E11#32 = cwCmd 0x11#32 ∧
    cwLaw 0x1E11#32 = cwLaw 0x11#32 ∧ cwFmt 0x1E11#32 = cwFmt 0x11#32) ∧
    (cwReserved 0x41E#32 = 0 ∧ cwCmd 0x41E#32 = cwCmd 0x41A#32 ∧ cwFmt 0x41E#32 = cwFmt 0x41A#32 ∧
    cwRate 0x41E#32 = cwRate 0x41A#32 ∧ cwTarget 0x41E#32 = cwTarget 0x41A#32 ∧ cwInplace 0x41E#32 = cwInplace 0x41A#32) := by decide
theorem witness_EveryMicroOperationIsSelectedByItsWord : (Instr.decim (.filt .r192000) .r8000).wellFormed = false ∧ Instr.decF64le.wellFormed = false := by decide
theorem witness_CommandsRunTheirMicroOperations : (bufs [1, 2] [] 2 1).lengthsTrue = true ∧
    (bufs [1, 2] [] 2 1).inLen.toNat / 2 ≤ (bufs [1, 2] [] 2 1).outLen.toNat ∧
    nextWith (exec (Fmt.dec .s8) ((bufs [1] [] 1 1).fetchWindow 1)) (fun a =>
      nextWith (exec (Law.cmp .mulaw) a) (fun b => decide (b.count < b.outLen))) = true ∧
    nextWith (exec (Fmt.dec .s8) ((bufs [1] [] 1 0).fetchWindow 1)) (fun a =>
      nextWith (exec (Law.cmp .mulaw) a) (fun b => decide (b.outLen ≤ b.count))) = true ∧
    (bufs [1, 2] [] 2 2).resampleReady false ∧ (bufs [1, 2] [] 2 0).resampleReady true := by decide +kernel
theorem witness_FloatDecodersWriteTheirSample : floatValue .f32be ((winState [0x7F, 0xC0, 0, 0]).window 4) = .nan ∧
    floatValue .f32le ((winState [0, 0, 0x80, 0x7F]).window 4) = .inf false ∧
    floatValue .f64be ((winState [0xFF, 0xF0, 0, 0, 0, 0, 0, 0]).window 8) = .inf true ∧
    floatValue .f32be ((winState [0x3F, 0x80, 0, 0]).window 4) = .fin 1 ∧ (32767 : Rat) ≤ 1 * 32767 ∧
    floatValue .f32be ((winState [0xC0, 0, 0, 0]).window 4) = .fin (-2) ∧ (-2 : Rat) * 32767 ≤ -32767 - 1 / 2 ∧
    floatValue .f32be ((winState [0x3F, 0, 0, 0]).window 4) = .fin (1 / 2) ∧ (0 : Rat) ≤ 1 / 2 * 32767 ∧
    (1 / 2 : Rat) * 32767 < 32767 ∧
    floatValue .f64le ((winState [0, 0, 0, 0, 0, 0, 0xF0, 0xBF]).window 8) = .fin (-1) ∧ (-1 : Rat) * 32767 < 0 ∧
    (-32767 - 1 / 2 : Rat) < -1 * 32767 := by decide +kernel
theorem witness_IeeePatternsHaveTheirValue : (2 ≤ 8 ∧ 1 < 2 ∧ 255 < 2 ^ 8 ∧ 2 ^ 23 - 1 < 2 ^ 23 ∧ 2 ^ 23 - 1 ≠ 0) ∧
    (0 < 1 ∧ 1 < 2 ^ 8 - 1 ∧ 254 < 2 ^ 8 - 1 ∧ 255 = 2 ^ 8 - 1) ∧ ([1, 2, 3, 4] : Window).length = 4 := by decide +kernel
theorem witness_ByteOrderPairsAgree : (winState [8, 7, 6, 5, 4, 3, 2, 1]).window 8 = ((winState [1, 2, 3, 4, 5, 6, 7, 8]).window 8).reverse ∧
    (winState [2, 1]).window 2 = ((winState [1, 2]).window 2).reverse := by decide
theorem witness_UnsignedIsSignedWithTheTopBitFlipped : (0 < 2 ^ (8 * Fmt.u8.bw) ∧ 255 < 2 ^ (8 * Fmt.u8.bw)) ∧ 2 ^ 32 - 1 < 2 ^ (8 * Fmt.u32le.bw) := by decide
theorem witness_IntegerDecodersHaveTheirRange : ([0x80] : Window).length = Fmt.s8.bw ∧ (-128 : Int) ≤ -128 ∧ (127 : Int) ≤ 127 := by decide
theorem witness_MulawWritesTheClosedForm : ((BitVec.ofInt 16 0 : Sample).toInt < 0 ↔ (BitVec.ofInt 16 3 : Sample).toInt < 0) ∧
    magnitude (BitVec.ofInt 16 0) / 4 = magnitude (BitVec.ofInt 16 3) / 4 := by decide
theorem witness_MulawIsMonotone : (0 ≤ (0 : Sample).toInt ∧ (0 : Sample).toInt ≤ (32767 : Sample).toInt) ∧
    ((0x8000 : Sample).toInt ≤ (0xFFFF : Sample).toInt ∧ (0xFFFF : Sample).toInt < 0) := by decide
theorem witness_AlawWritesTheClosedForm : ((255 : Sample).toInt / 16 ≤ 15 ∧ 15 < (256 : Sample).toInt / 16) ∧
    (15 < (0x8000 : Sample).toInt * -1 / 16) := by decide
theorem witness_AlawSymmetryAndDependence : 0 ≤ (0 : Sample).toInt ∧ ((0 : Sample).toInt < 0 ↔ (15 : Sample).toInt < 0) ∧
    alawMagnitude 0 = alawMagnitude 15 := by decide
theorem witness_AlawIsMonotone : magnitude 0x8000 ≤ magnitude 0x7FFF ∧ magnitude 255 ≤ magnitude 256 := by decide
theorem witness_FilterFollowsTheRecurrence : 2 < 3 ∧ 3 ≤ 3 ∧ 3 < stages.xw.length := by decide
theorem witness_FilterBoundaryIsZero : stages.xw.length = { stages with xw := [[0, 0], [0, 0], [0, 0], [7, 8]] }.xw.length ∧
    stages.xw.drop 3 = { stages with xw := [[0, 0], [0, 0], [0, 0], [7, 8]] }.xw.drop 3 ∧ 2 < 3 ∧ 2 < stages.xw.length := by decide
theorem witness_DecimationKeepsEveryStride : 1 < (if stages.yw.length = 0 then 0 else (stages.yw.length - 1) / 2 + 1) := by decide
theorem witness_ReferencePackUndoesUnpack : Fmt.u24le.kind ≠ .float ∧ ([1, 2, 3] : Window).length = Fmt.u24le.bw ∧ Fmt.f32be.kind = .float := by decide
theorem witness_ResampleStoresTheKeptWindows : (bufs v1 [] 16 16).resampleReady false ∧ (bufs v1 [] 17 0).resampleReady true ∧
    (bufs [] [] 0 0).resampleReady false := by decide +kernel
theorem witness_ResampleAtEightThousandCopies : (bufs v1 [] 16 16).resampleReady false ∧ 15 < (16#32).toNat / Fmt.s16le.bw * Fmt.s16le.bw := by decide +kernel
theorem witness_ResampleInPlaceAgrees : (bufs v1 [] 16 16).resampleReady false ∧ (bufs v1 [] 16 3).resampleReady true ∧
    (0xFFFFFFFF#32) ≤ (bufs v1 [] 16 3).output.size := by decide +kernel
theorem witness_ResampleOfUnequalSizesFaults : (bufs v1 [] 16 15).lengthsTrue = true ∧ (bufs v1 [] 16 15).outLen ≠ (bufs v1 [] 16 15).inLen := by decide +kernel
theorem witness_FilteredUnsignedStartsAtFullScale : Fmt.u8.kind = .unsigned ∧ (bufs [1] [] 1 1).resampleReady false ∧
    Fmt.u8.bw ≤ (bufs [1] [] 1 1).inLen.toNat := by decide +kernel
theorem witness_EncodeRaisesOutputBufferTooSmall : (bufs [1, 2] [] 2 0).lengthsTrue = true ∧
    (bufs [1, 2] [] 2 0).outLen.toNat < (bufs [1, 2] [] 2 0).inLen.toNat / 2 := by decide +kernel
theorem witness_EncodeStoresOneByteAWindow : (bufs [1, 2, 3] [] 3 1).encodeReady .s16be ∧ (bufs [1, 2, 3] [] 3 3).encodeReady .u8 ∧
    (bufs [] [] 0 0).encodeReady .f64le := by decide +kernel
theorem witness_EncodeFrame : nextWith (exec (.encode .mulaw .s8 0) (bufs [1, 2] [] 2 2)) (fun _ => true) = true ∧
    nextWith (exec (.encode .mulaw .s8 0) (bufs [1, 2] [] 2 0)) (fun t => statusErr t.status) = true := by decide +kernel
theorem witness_EncodeOverrunsOnlyOneByteFormats : Fmt.s8.bw = 1 ∧ (bufs [1, 2] [] 2 1).lengthsTrue = true ∧
    (bufs [1, 2] [] 2 1).inLen.toNat / 2 ≤ (bufs [1, 2] [] 2 1).outLen.toNat ∧
    (bufs [1, 2] [] 2 1).outLen.toNat < (bufs [1, 2] [] 2 1).inLen.toNat ∧ 2 ≤ Fmt.s16be.bw := by decide +kernel
theorem witness_ByteOrderDoesNotChangeTheOutput : (bufs [1, 2, 3, 4] [] 4 2).encodeReady .s16be ∧ (bufs [2, 1, 4, 3] [] 4 2).lengthsTrue = true ∧
    ∀ k < 2, (bufs [2, 1, 4, 3] [] 4 2).readBytes .input (k * 2) 2 =
      ((bufs [1, 2, 3, 4] [] 4 2).readBytes .input (k * 2) 2).reverse := by decide +kernel
theorem witness_EncodeDependsOnItsWindowsOnly : (bufs [1, 2, 9] [7] 3 1).lengthsTrue = true ∧
    (∀ a < 2, (bufs [1, 2, 9] [7] 3 1).readByte .input a = (bufs [1, 2, 3] [] 3 1).readByte .input a) ∧
    nextWith (exec (.encode .mulaw .s16be 0) (bufs [1, 2, 3] [] 3 1)) (fun _ => true) = true := by decide +kernel
theorem witness_ResampleDependsOnItsWindowsOnly : (bufs [1, 2, 9] [7] 3 3).lengthsTrue = true ∧
    (∀ a < 2, (bufs [1, 2, 9] [7] 3 3).readByte .input a = (bufs [1, 2, 3] [] 3 3).readByte .input a) ∧
    nextWith (exec (.resample .s16be .r8000 .r8000 false 0) (bufs [1, 2, 3] [] 3 3)) (fun _ => true) = true := by decide +kernel
theorem witness_NopChangesNothing : (0x0003FFFC#32).toNat % 4 = 0 ∧ (0x0003FFFC#32).toNat < 2 ^ 18 := by decide
theorem witness_RetryAfterTheErrorOwesNothing : nextWith (exec (.encode .mulaw .s16be 0) (bufs [1, 2] [] 2 0)) (fun t => statusErr t.status) = true := by decide +kernel
theorem witness_InstructionsStopExactlyWhereTheSpecSays : (Instr.decim .r8000 .r8000).cls ≠ .command ∧ Instr.decS8.cls ≠ .command := by decide
theorem witness_OnlyTheCommandsWriteTheBuffers : nextWith (exec (.resample .s8 .r8000 .r8000 true 0) (bufs [1] [] 1 0)) (fun _ => true) = true := by decide +kernel
theorem witness_NoStoreBeyondTheLengths : nextWith (exec (.encode .alaw .s8 0) (bufs [1] [] 1 1)) (fun t => decide (t.inLen.toNat ≤ 1)) = true := by decide +kernel
theorem witness_OnlyEncodeRaisesTheError : nextWith (exec (.encode .alaw .s16be 0) (bufs [1, 2] [] 2 0)) (fun t => t.status == 0x13) = true ∧
    nextWith (exec (.encode .alaw .s16be 0) (bufs [1, 2] [] 2 1)) (fun t => t.status == 0x01) = true := by decide +kernel
theorem witness_MicroOperationsWriteTheirRegisterOnly : Instr.cmpAlaw.cls ≠ .command ∧ nextWith (exec .cmpAlaw State.reset) (fun _ => true) = true ∧
    Instr.cmpAlaw.cls ≠ .decoder ∧ Instr.cmpAlaw.cls ≠ .filter ∧ Instr.cmpAlaw.cls ≠ .decimator ∧
    Instr.decS8.cls ≠ .compander := by decide
theorem witness_CopyBackCopiesTheResult : (acting { bufs [] [5, 6] 0 2 with count := 2 } .copyBack).pending = [.copyBack] ∧
    (2#32) ≤ (bufs [] [5, 6] 0 2).output.size ∧ (2#32) ≤ (bufs [] [5, 6] 0 2).input.size := by decide +kernel
theorem witness_HostStoresBytes : (acting State.reset (.storeIn [1, 2])).pending = [.storeIn [1, 2]] ∧
    ([1, 2] : List Byte).length ≤ State.reset.input.size.toNat ∧
    (acting State.reset (.storeOut [])).pending = [.storeOut []] ∧
    ([] : List Byte).length ≤ State.reset.output.size.toNat ∧
    (acting twoBytes (.storeByte .input 1 9)).pending = [.storeByte .input 1 9] ∧
    1 < (twoBytes.buffer .input).size.toNat ∧
    (acting twoBytes (.loadByte .output 0)).pending = [.loadByte .output 0] ∧
    0 < (twoBytes.buffer .output).size.toNat ∧
    (acting twoBytes (.supply .input 0)).pending = [.supply .input 0] := by decide
theorem witness_HostStoresBytes_stops : (acting twoBytes (.storeByte .input 2 9)).pending = [.storeByte .input 2 9] ∧
    (twoBytes.buffer .input).size.toNat ≤ 2 ∧
    (acting twoBytes (.loadByte .output 2)).pending = [.loadByte .output 2] ∧
    (twoBytes.buffer .output).size.toNat ≤ 2 ∧
    (acting twoBytes (.storeIn [1, 2, 3])).pending = [.storeIn [1, 2, 3]] ∧
    twoBytes.input.size.toNat < ([1, 2, 3] : List Byte).length ∧
    (acting twoBytes (.storeOut [1, 2, 3])).pending = [.storeOut [1, 2, 3]] ∧
    twoBytes.output.size.toNat < ([1, 2, 3] : List Byte).length ∧
    (acting { twoBytes with count := 3 } .copyBack).pending = [.copyBack] ∧ twoBytes.output.size < 3#32 := by decide
theorem witness_FloatDecodersReachEverySample : Fmt.f64le ∈ [Fmt.f32be, .f32le, .f64be, .f64le] := by decide

/-! ## The host's program P2 of 95_test_vectors.md, one step of it: the error leaves the output alone -/

theorem test_step_error : nextWith (step ((bufs [0xE8, 0x03, 0x18, 0xFC, 0x10, 0x00, 0x7F] [0xAA, 0xAA, 0xAA] 7 2).withFetchWord 32 0x1D))
    (fun t => t.status == 0x13 && t.count == 0 && t.readBytes .output 0 3 == [0xAA, 0xAA, 0xAA]) = true := by decide +kernel

end Sys2Proof.Tests
end

section
/-! PROOF. The family 10_state.md: the state right after reset (R35) and the host's six registers (R26). One equation per
case of `readReg`, `writeReg` and `step`; the two obligations are assembled from them. -/

namespace Sys2Proof.Machine

/-! ## The state after reset (R35) -/

@[simp] theorem reset_win_getElem (i : Fin 8) : State.reset.win[i] = 0#8 := by
  revert i
  decide

@[simp] theorem reset_buffer (sp : Space) : State.reset.buffer sp = Buffer.reset := by cases sp <;> rfl

/-- No byte is written at reset, so every read falls through to the free value of R35. -/
@[simp] theorem reset_readByte (sp : Space) (a : Nat) : State.reset.readByte sp a = Config.resetByte sp a := by
  rw [State.readByte, reset_buffer]
  rfl

/-- The word `CW` holds at reset spells `NOP` (R35). -/
theorem decode_zero : decode 0#32 = .ok (.nop 0#16) := by decide

/-- Settles O1: the registers are the fields of `State.reset`; `WIN` and the buffers have their lemmas above. -/
theorem resetLeavesTheSpecsValues : Obligations.ResetLeavesTheSpecsValues :=
  ⟨rfl, rfl, rfl, rfl, rfl, reset_win_getElem, rfl, rfl, rfl, rfl, rfl, decode_zero, reset_readByte⟩

/-! ## The control registers by number (R26) -/

section Registers
variable (s : State) (v : Word)

@[simp] theorem readReg_cw : s.readReg 0 = s.cw := rfl
@[simp] theorem readReg_inLen : s.readReg 1 = s.inLen := rfl
@[simp] theorem readReg_outLen : s.readReg 2 = s.outLen := rfl
@[simp] theorem readReg_status : s.readReg 3 = s.status := rfl
@[simp] theorem readReg_count : s.readReg 4 = s.count := rfl
@[simp] theorem readReg_five : s.readReg 5 = 0#32 := rfl

theorem reset_readReg (n : Fin 6) : State.reset.readReg n = 0#32 := by
  fin_cases n <;> rfl

@[simp] theorem writeReg_cw : writeReg 0 v s = launch v s := rfl
@[simp] theorem writeReg_inLen : writeReg 1 v s = .next { s with inLen := v } := rfl
@[simp] theorem writeReg_outLen : writeReg 2 v s = .next { s with outLen := v } := rfl

/-- A write of `STATUS`, of `COUNT` or of register 5 is ignored (R26). -/
theorem writeReg_ignored {n : Fin 6} (h : 3 ≤ n) : writeReg n v s = .next s := by
  match n, h with
  | 3, _ => rfl
  | 4, _ => rfl
  | 5, _ => rfl

end Registers

/-! ## The step by the host's next action (R6) -/

theorem step_of_pending {s : State} {a : HostAction} {rest : List HostAction} (h : s.pending = a :: rest) :
    step s = hostAct a { s with pending := rest } := by
  rw [step, runPending, h]

theorem step_of_readReg {s : State} {n : Fin 6} {rest : List HostAction} (h : s.pending = .readReg n :: rest) :
    step s = .next { s with pending := rest, hostData := s.readReg n } :=
  step_of_pending h

theorem step_of_writeReg {s : State} {n : Fin 6} {v : Word} {rest : List HostAction}
    (h : s.pending = .writeReg n v :: rest) : step s = writeReg n v { s with pending := rest } :=
  step_of_pending h

/-- Settles O5: a register action is the whole step, and the registers by number have one equation each. -/
theorem hostReadsAndWritesSixRegisters : Obligations.HostReadsAndWritesSixRegisters := by
  refine ⟨fun s => ?reads, reset_readReg, fun s rest n h => step_of_readReg h, fun s rest n v h => ?writes⟩
  case reads => exact ⟨readReg_cw s, readReg_inLen s, readReg_outLen s, readReg_status s, readReg_count s, readReg_five s⟩
  case writes =>
    rw [step_of_writeReg h]
    refine ⟨?_, ?_, ?_, writeReg_ignored _ v⟩
    · rintro rfl; exact writeReg_cw _ v
    · rintro rfl; exact writeReg_inLen _ v
    · rintro rfl; exact writeReg_outLen _ v

end Sys2Proof.Machine
end

section
/-! PROOF. The family 30_encoding.md: the worked encodings of R94. Each row is the decoder run on one word; the row with an
ignored field is that `ENCODE` neither reads nor writes `CW` (R81, R91), shown turn by turn of its walk. -/

namespace Sys2Proof.Machine

/-! ## ENCODE and the word in CW (R81, R91) -/

/-- One turn of the walk takes the word in `CW` along: the room left, the payload and the next state do not depend on it. -/
theorem encodeWalk_succ_withCw (l : Law) (f : Fmt) (n : Nat) (s : State) (v : Word) :
    encodeWalk l f (n + 1) { s with cw := v } =
      if (s.encodeWindow l f).outLen ≤ (s.encodeWindow l f).count then
        .fault (.outputOverrun ((s.encodeWindow l f).readBytes .output 0 (s.encodeWindow l f).count.toNat))
      else encodeWalk l f n { (s.encodeWindow l f).storeCode f.bw with cw := v } := rfl

theorem encodeWalk_sameButCw (l : Law) (f : Fmt) (n : Nat) (s : State) (v w : Word) :
    sameButCw (encodeWalk l f n { s with cw := v }) (encodeWalk l f n { s with cw := w }) := by
  induction n generalizing s with
  | zero => rfl
  | succ n ih =>
    rw [encodeWalk_succ_withCw, encodeWalk_succ_withCw]
    split
    · rfl
    · exact ih _

/-- `ENCODE` takes the word in `CW` along: its start clears other registers, and its checks read other registers. -/
theorem execEncode_withCw (l : Law) (f : Fmt) (s : State) (v : Word) :
    execEncode l f { s with cw := v } =
      if !(s.start Config.lpfArith).lengthsTrue then .fault .bufferLengthUntrue
      else if (s.start Config.lpfArith).outLen.toNat < (s.start Config.lpfArith).inLen.toNat / 2 then
        .next { (s.start Config.lpfArith).raiseOutputBufferTooSmall with cw := v }
      else encodeWalk l f (s.windowCount f.bw) { s.start Config.lpfArith with cw := v } := rfl

theorem execEncode_sameButCw (l : Law) (f : Fmt) (s : State) (v w : Word) :
    sameButCw (execEncode l f { s with cw := v }) (execEncode l f { s with cw := w }) := by
  rw [execEncode_withCw, execEncode_withCw]
  split
  · rfl
  · split
    · rfl
    · exact encodeWalk_sameButCw ..

/-- Two words that spell `ENCODE` with the same law and format launch alike, whatever bits they ignore. -/
theorem launch_sameButCw_of_encode {v w : Word} {l : Law} {f : Fmt} {ign ign' : BitVec 9}
    (hv : decode v = .ok (.encode l f ign)) (hw : decode w = .ok (.encode l f ign')) (s : State) :
    sameButCw (launch v s) (launch w s) := by
  rw [launch, launch, hv, hw]
  exact execEncode_sameButCw l f s v w

/-! ## The rows of R94 -/

theorem decode_encode_mulaw_s16be : decode 0x00000011#32 = .ok (.encode .mulaw .s16be 0#9) := by decide

/-- The same command with `RATE` = 15, a field `ENCODE` ignores. -/
theorem decode_encode_mulaw_s16be_rate15 : decode 0x00001E11#32 = .ok (.encode .mulaw .s16be 0xF#9) := by decide

/-- Settles O7: each row by running the decoder, the ignored field by `launch_sameButCw_of_encode`. -/
theorem workedEncodingsDecode : Obligations.WorkedEncodingsDecode := by
  refine ⟨decode_zero, decode_encode_mulaw_s16be, ?_, ?_, ?_, ?_, ?_, ?_, ?_, ?_, ?_, ?_, ?_, ?_, ?_, ?_,
    ⟨_, decode_encode_mulaw_s16be_rate15⟩, fun s c => ?ignoredField⟩
  case ignoredField =>
    exact launch_sameButCw_of_encode decode_encode_mulaw_s16be_rate15 decode_encode_mulaw_s16be { s with cw := c }
  all_goals decide

end Sys2Proof.Machine
end

section
/-! PROOF. The family 40_sample_decoder.md: the eighteen decoders. Windows are read as numbers; the fourteen integer formats
share one form (`integerSample`: the signed value, scaled to 16 bits by the floor), the four float formats another
(`floatToSample` of `floatValue`). The obligations on `exec` go through `exec_dec` and these two forms. -/

namespace Sys2Proof.Machine

/-! ## Windows as numbers (R12) -/

theorem leNat_append (a b : Window) : leNat (a ++ b) = leNat a + 256 ^ a.length * leNat b := by
  induction a with
  | nil => simp [leNat]
  | cons x xs ih =>
    simp only [List.cons_append, leNat, ih, List.length_cons]
    ring

theorem beNat_append (a b : Window) : beNat (a ++ b) = beNat a * 256 ^ b.length + beNat b := by
  simp only [beNat, List.reverse_append, leNat_append, List.length_reverse]
  ring

theorem leNat_lt (w : Window) : leNat w < 256 ^ w.length := by
  induction w with
  | nil => simp [leNat]
  | cons b bs ih =>
    have := b.isLt
    simp only [leNat, List.length_cons, Nat.pow_succ]
    omega

theorem rawNat_lt (le : Bool) (w : Window) : rawNat le w < 256 ^ w.length := by
  cases le
  · simpa [rawNat, beNat] using leNat_lt w.reverse
  · exact leNat_lt w

theorem leNat_leBytes (k n : Nat) : leNat (leBytes k n) = n % 256 ^ k := by
  induction k generalizing n with
  | zero => simp [leBytes, leNat, Nat.mod_one]
  | succ k ih => rw [leBytes, leNat, ih, Nat.pow_succ', Nat.mod_mul, BitVec.toNat_ofNat]

/-- A number read back from its bytes in either byte order is the number, cut to the bytes. -/
theorem rawNat_rawBytes (le : Bool) (k n : Nat) : rawNat le (rawBytes le k n) = n % 256 ^ k := by
  cases le <;> simp [rawNat, rawBytes, beNat, beBytes, leNat_leBytes]

@[simp] theorem window_length (s : State) (f : Fmt) : (s.window f.bw).length = f.bw := by
  simpa [State.window] using Fmt.bw_le f

section WindowBytes
variable (s : State)

theorem window_one : s.window 1 = [s.win[0]] := by simp [State.window, List.take_add_one]
theorem window_two : s.window 2 = [s.win[0], s.win[1]] := by simp [State.window, List.take_add_one]
theorem window_three : s.window 3 = [s.win[0], s.win[1], s.win[2]] := by simp [State.window, List.take_add_one]
theorem window_four : s.window 4 = [s.win[0], s.win[1], s.win[2], s.win[3]] := by
  simp [State.window, List.take_add_one]

/-- One byte is its own pattern, in either byte order. -/
theorem rawNat_window_one (le : Bool) : (rawNat le (s.window 1) : Int) = s.win[0].toNat := by
  cases le <;> simp [window_one, rawNat, beNat, leNat]

theorem rawNat_be_window_two : (rawNat false (s.window 2) : Int) = (s.win[0].toNat : Int) * 256 + s.win[1].toNat := by
  simp [window_two, rawNat, beNat, leNat]; ring

theorem rawNat_le_window_two : (rawNat true (s.window 2) : Int) = s.win[0].toNat + (s.win[1].toNat : Int) * 256 := by
  simp [window_two, rawNat, leNat]; ring

theorem rawNat_be_window_three : (rawNat false (s.window 3) : Int) =
    (s.win[0].toNat : Int) * 65536 + (s.win[1].toNat : Int) * 256 + s.win[2].toNat := by
  simp [window_three, rawNat, beNat, leNat]; ring

theorem rawNat_le_window_three : (rawNat true (s.window 3) : Int) =
    s.win[0].toNat + (s.win[1].toNat : Int) * 256 + (s.win[2].toNat : Int) * 65536 := by
  simp [window_three, rawNat, leNat]; ring

theorem rawNat_be_four (a b c d : Byte) :
    rawNat false [a, b, c, d] = a.toNat * 2 ^ 24 + b.toNat * 2 ^ 16 + c.toNat * 2 ^ 8 + d.toNat := by
  simp [rawNat, beNat, leNat]; ring

theorem rawNat_be_window_four : (rawNat false (s.window 4) : Int) = (s.win[0].toNat : Int) * 2 ^ 24 +
    (s.win[1].toNat : Int) * 2 ^ 16 + (s.win[2].toNat : Int) * 2 ^ 8 + s.win[3].toNat := by
  rw [window_four, rawNat_be_four]; push_cast; rfl

theorem rawNat_le_window_four : (rawNat true (s.window 4) : Int) = s.win[0].toNat +
    (s.win[1].toNat : Int) * 2 ^ 8 + (s.win[2].toNat : Int) * 2 ^ 16 + (s.win[3].toNat : Int) * 2 ^ 24 := by
  simp [window_four, rawNat, leNat]; ring

end WindowBytes

/-! ## Patterns as signed values (R9) -/

theorem sext_range {n p : Nat} (hn : 0 < n) (hp : p < 2 ^ n) :
    -2 ^ (n - 1) ≤ sext n p ∧ sext n p < 2 ^ (n - 1) := by
  obtain ⟨m, rfl⟩ : ∃ m, n = m + 1 := ⟨n - 1, by omega⟩
  simp only [Nat.add_sub_cancel, sext]
  have : (2 : Int) ^ (m + 1) = 2 * 2 ^ m := by ring
  have : (p : Int) < 2 ^ (m + 1) := by exact_mod_cast hp
  split
  next h =>
    have : (p : Int) < 2 ^ m := by exact_mod_cast h
    omega
  next h =>
    have : (2 : Int) ^ m ≤ p := by exact_mod_cast Nat.le_of_not_lt h
    omega

/-- The top bit flipped: a pattern below the middle moves up by half the range, one from the middle on moves down. -/
theorem xor_topBit {m p : Nat} (hp : p < 2 ^ (m + 1)) :
    p ^^^ 2 ^ m = if p < 2 ^ m then p + 2 ^ m else p - 2 ^ m := by
  have hpow : 2 ^ (m + 1) = 2 * 2 ^ m := Nat.pow_succ'
  have hlow : (p ^^^ 2 ^ m) % 2 ^ m = p % 2 ^ m := by simp [Nat.xor_mod_two_pow]
  have hhigh : (p ^^^ 2 ^ m) / 2 ^ m = p / 2 ^ m ^^^ 1 := by simp [Nat.xor_div_two_pow]
  rw [← Nat.div_add_mod (p ^^^ 2 ^ m) (2 ^ m), hlow, hhigh]
  split
  next h => rw [Nat.div_eq_of_lt h, Nat.mod_eq_of_lt h]; simp [Nat.add_comm]
  next h =>
    have hone : p / 2 ^ m = 1 := Nat.div_eq_of_lt_le (by omega) (by omega)
    have := Nat.div_add_mod p (2 ^ m)
    simp only [hone] at this ⊢
    simp; omega

/-- Reading a pattern with its top bit flipped as signed removes the bias of the unsigned reading. -/
theorem sext_xor_topBit {n p : Nat} (hn : 0 < n) (hp : p < 2 ^ n) :
    sext n (p ^^^ 2 ^ (n - 1)) = (p : Int) - 2 ^ (n - 1) := by
  obtain ⟨m, rfl⟩ : ∃ m, n = m + 1 := ⟨n - 1, by omega⟩
  simp only [Nat.add_sub_cancel] at hp ⊢
  have hpow : (2 : Int) ^ (m + 1) = 2 * 2 ^ m := by ring
  rw [xor_topBit hp, sext, Nat.add_sub_cancel]
  by_cases h : p < 2 ^ m
  · rw [if_pos h, if_neg (by omega)]; push_cast; omega
  · rw [if_neg h, if_pos (by rw [Nat.pow_succ'] at hp; omega)]; push_cast [Nat.le_of_not_lt h]; rfl

/-! ## The integer formats -/

/-- The value of a pattern of an integer format: sign extended, or with the bias of the unsigned reading removed. -/
def integerValue (f : Fmt) (p : Nat) : Int :=
  if f.kind = .signed then sext (8 * f.bw) p else p - 2 ^ (8 * f.bw - 1)

/-- The value scaled to 16 bits: up by 256 from 8 bits, down to the floor from the wider formats. -/
def integerSample (f : Fmt) (p : Nat) : Int :=
  if f.bw = 1 then integerValue f p * 256 else integerValue f p / 2 ^ (8 * f.bw - 16)

/-- R112 to R125 in one form. -/
theorem decodeSample_integer {f : Fmt} (hf : f.kind ≠ .float) (w : Window) :
    decodeSample f w = BitVec.ofInt 16 (integerSample f (rawNat f.le w)) := by
  have bias24 (p : Int) : (p - 8388608) / 256 = p / 256 - 32768 := by omega
  have bias32 (p : Int) : (p - 2147483648) / 65536 = p / 65536 - 32768 := by omega
  cases f
  case f32be | f32le | f64be | f64le => exact absurd rfl hf
  case s8 | u8 => rfl
  case s16be | s16le | u16be | u16le =>
    simp [decodeSample, sampleS16be, sampleS16le, sampleU16be, sampleU16le, integerSample, integerValue,
      Fmt.bw, Fmt.kind, Fmt.le]
  case s24be | s24le | u24be | u24le =>
    simp [decodeSample, sampleS24be, sampleS24le, sampleU24be, sampleU24le, integerSample, integerValue,
      Fmt.bw, Fmt.kind, Fmt.le, bias24]
  case s32be | s32le | u32be | u32le =>
    simp [decodeSample, sampleS32be, sampleS32le, sampleU32be, sampleU32le, integerSample, integerValue,
      Fmt.bw, Fmt.kind, Fmt.le, bias32]

/-- A pattern of the format's width has a value of that many bits, two's complement. -/
theorem integerValue_range (f : Fmt) {p : Nat} (hp : p < 2 ^ (8 * f.bw)) :
    -2 ^ (8 * f.bw - 1) ≤ integerValue f p ∧ integerValue f p < 2 ^ (8 * f.bw - 1) := by
  have hbw := Fmt.bw_pos f
  have hn : 8 * f.bw = 8 * f.bw - 1 + 1 := by omega
  rw [integerValue]
  split
  · exact sext_range (by omega) hp
  · rw [hn, Nat.pow_succ] at hp
    have : (p : Int) < 2 ^ (8 * f.bw - 1) * 2 := by exact_mod_cast hp
    omega

/-- The scaled value of an integer format lies inside 16 bits, so the one narrowing at the end loses nothing. -/
theorem integerSample_range (f : Fmt) {p : Nat} (hp : p < 2 ^ (8 * f.bw)) :
    -2 ^ 15 ≤ integerSample f p ∧ integerSample f p < 2 ^ 15 := by
  obtain ⟨hlo, hhi⟩ := integerValue_range f hp
  have hbw := Fmt.bw_pos f
  rw [integerSample]
  split
  next h =>
    rw [h] at hlo hhi
    omega
  next h =>
    have hbits : 8 * f.bw - 1 = 15 + (8 * f.bw - 16) := by omega
    have hpos : (0 : Int) < 2 ^ (8 * f.bw - 16) := by positivity
    rw [hbits, Int.pow_add] at hlo hhi
    exact ⟨Int.le_ediv_of_mul_le hpos (by rwa [Int.neg_mul]), Int.ediv_lt_of_lt_mul hpos hhi⟩

theorem rawNat_window_lt (s : State) (f : Fmt) : rawNat f.le (s.window f.bw) < 2 ^ (8 * f.bw) := by
  have h := rawNat_lt f.le (s.window f.bw)
  rwa [window_length, show 256 = 2 ^ 8 from rfl, ← Nat.pow_mul] at h

/-- The number in `SAMPLE` after an integer decoder: nothing is lost by the narrowing. -/
theorem runDec_sample_integer (s : State) {f : Fmt} (hf : f.kind ≠ .float) :
    (s.runDec f).sample.toInt = integerSample f (rawNat f.le (s.window f.bw)) := by
  obtain ⟨hlo, hhi⟩ := integerSample_range f (rawNat_window_lt s f)
  rw [runDec_sample, decodeSample_integer hf, BitVec.toInt_ofInt_eq_self (by decide) hlo hhi]

section WideFormats
variable {f : Fmt} {k p : Nat} {v : Int}

/-- A signed format of `16 + k` bits gives the floor of its signed value by `2 ^ k`. -/
theorem integerSample_signed (hf : f.kind = .signed) (hbw : 8 * f.bw = 16 + k) (hp : (p : Int) = v) :
    integerSample f p = (if v < 2 ^ (15 + k) then v else v - 2 ^ (16 + k)) / 2 ^ k := by
  have hhalf : p < 2 ^ (15 + k) ↔ v < 2 ^ (15 + k) := by rw [← hp]; exact_mod_cast Iff.rfl
  rw [integerSample, if_neg (by omega), integerValue, if_pos hf, hbw, sext, Nat.add_sub_cancel_left,
    show 16 + k - 1 = 15 + k by omega, hp]
  simp only [hhalf]

/-- An unsigned format of `16 + k` bits gives its top 16 bits less the bias. -/
theorem integerSample_unsigned (hf : f.kind = .unsigned) (hbw : 8 * f.bw = 16 + k) (hp : (p : Int) = v) :
    integerSample f p = v / 2 ^ k - 32768 := by
  rw [integerSample, if_neg (by omega), integerValue, if_neg (by rw [hf]; decide), hbw, Nat.add_sub_cancel_left,
    show 16 + k - 1 = 15 + k by omega, hp, Int.pow_add, Int.sub_mul_ediv_right _ _ (by positivity)]
  rfl

end WideFormats

/-! ## The meanings of the integer decoders (R110, R112 to R125) -/

/-- Every `DEC.*` completes, and its next state is `runDec` of its format (R110). -/
theorem exec_dec (f : Fmt) (s : State) : exec f.dec s = .next (s.runDec f) := by
  cases f <;> rfl

/-- The bit pattern of a sample is its value modulo `2 ^ 16`. -/
theorem sample_toNat_eq (x : Sample) : (x.toNat : Int) = x.toInt % 65536 := by
  have := x.isLt
  rw [BitVec.toInt_eq_toNat_cond]
  split <;> omega

section IntegerDecoders
variable (s : State) {f : Fmt}

/-- An integer decoder completes, writes `SAMPLE` only, and writes the scaled value of the window's pattern. -/
theorem exec_dec_integer {v : Int} (hf : f.kind ≠ .float)
    (hv : integerSample f (rawNat f.le (s.window f.bw)) = v) :
    ∃ t, exec f.dec s = .next t ∧ t = { s with sample := t.sample } ∧ t.sample.toInt = v :=
  ⟨_, exec_dec f s, rfl, (runDec_sample_integer s hf).trans hv⟩

variable {k d : Nat} {v top : Int}

/-- A signed decoder of `16 + k` bits: the floor of the signed value by `2 ^ k`, whose bits are the top 16 of the pattern. -/
theorem exec_dec_signed (hf : f.kind = .signed) (hbw : 8 * f.bw = 16 + k) (hd : 2 ^ k = d)
    (hv : (rawNat f.le (s.window f.bw) : Int) = v) (htop : v / d = top) :
    ∃ t, exec f.dec s = .next t ∧ t = { s with sample := t.sample } ∧
      t.sample.toInt = ⌊((if v < 2 ^ (15 + k) then v else v - 2 ^ (16 + k) : Int) : Rat) / d⌋ ∧
      t.sample.toNat = top := by
  obtain ⟨t, hexec, hframe, ht⟩ :=
    exec_dec_integer s (by rw [hf]; decide) (integerSample_signed hf hbw hv)
  have hd' : (2 : Int) ^ k = d := by exact_mod_cast hd
  have hpos : (0 : Int) < d := by rw [← hd']; positivity
  have hlt : v < 2 ^ 16 * d := by
    rw [← hv, ← hd', ← Int.pow_add, ← hbw]
    exact_mod_cast rawNat_window_lt s f
  have htop_lt : v / d < 2 ^ 16 := Int.ediv_lt_of_lt_mul hpos hlt
  have htop_nonneg : 0 ≤ v / d := Int.ediv_nonneg (by omega) hpos.le
  refine ⟨t, hexec, hframe, by rw [ht, Rat.floor_intCast_div_natCast, hd'], ?_⟩
  rw [sample_toNat_eq, ht, Int.pow_add, Int.pow_add, hd']
  split
  next => omega
  next => rw [Int.sub_mul_ediv_right _ _ hpos.ne']; omega

/-- An unsigned decoder of `16 + k` bits: the floor of the pattern by `2 ^ k`, its top 16 bits, less the bias. -/
theorem exec_dec_unsigned (hf : f.kind = .unsigned) (hbw : 8 * f.bw = 16 + k) (hd : 2 ^ k = d)
    (hv : (rawNat f.le (s.window f.bw) : Int) = v) (htop : v / d = top) :
    ∃ t, exec f.dec s = .next t ∧ t = { s with sample := t.sample } ∧
      t.sample.toInt = ⌊(v : Rat) / d⌋ - 32768 ∧ t.sample.toInt = top - 32768 := by
  obtain ⟨t, hexec, hframe, ht⟩ :=
    exec_dec_integer s (by rw [hf]; decide) (integerSample_unsigned hf hbw hv)
  have hd' : (2 : Int) ^ k = d := by exact_mod_cast hd
  rw [hd'] at ht
  exact ⟨t, hexec, hframe, by rw [ht, Rat.floor_intCast_div_natCast], by rw [ht, htop]⟩

end IntegerDecoders

/-- Settles O14: one byte's value scaled up by 256. -/
theorem eightBitDecodersWriteTheirSample : Obligations.EightBitDecodersWriteTheirSample := by
  intro s b
  have hb (le : Bool) : (rawNat le (s.window 1) : Int) = b := rawNat_window_one s le
  refine ⟨exec_dec_integer s (f := .s8) (by decide) ?_, exec_dec_integer s (f := .u8) (by decide) ?_⟩
  · have hsext : sext 8 (rawNat false (s.window 1)) = if b < 128 then b else b - 256 := by
      have := hb false
      rw [sext]; split <;> split <;> omega
    exact congrArg (· * 256) hsext
  · exact congrArg (fun v => (v - 128) * 256) (hb false)

/-- Settles O15: the formats of 16 bits are those of `16 + k` bits with `k` = 0. -/
theorem sixteenBitDecodersWriteTheirSample : Obligations.SixteenBitDecodersWriteTheirSample := by
  intro s be le
  have hbe : (rawNat false (s.window 2) : Int) = be := rawNat_be_window_two s
  have hle : (rawNat true (s.window 2) : Int) = le := rawNat_le_window_two s
  refine ⟨exec_dec_integer s (f := .s16be) (by decide) ?_, exec_dec_integer s (f := .s16le) (by decide) ?_,
    exec_dec_integer s (f := .u16be) (by decide) ?_, exec_dec_integer s (f := .u16le) (by decide) ?_⟩
  · exact (integerSample_signed (k := 0) rfl rfl hbe).trans (by simp)
  · exact (integerSample_signed (k := 0) rfl rfl hle).trans (by simp)
  · exact (integerSample_unsigned (k := 0) rfl rfl hbe).trans (by simp)
  · exact (integerSample_unsigned (k := 0) rfl rfl hle).trans (by simp)

/-- Settles O16: the formats of `16 + k` bits with `k` = 8; the window's bytes give the top 16 bits. -/
theorem twentyFourBitDecodersWriteTheirSample : Obligations.TwentyFourBitDecodersWriteTheirSample := by
  intro s w0 w1 w2 be le
  have hbe : (rawNat false (s.window 3) : Int) = be := rawNat_be_window_three s
  have hle : (rawNat true (s.window 3) : Int) = le := rawNat_le_window_three s
  have hbe_top : be / 256 = w0 * 256 + w1 := by omega
  have hle_top : le / 256 = w2 * 256 + w1 := by omega
  exact ⟨exec_dec_signed s (f := .s24be) (k := 8) (d := 256) rfl rfl rfl hbe hbe_top,
    exec_dec_signed s (f := .s24le) (k := 8) (d := 256) rfl rfl rfl hle hle_top,
    exec_dec_unsigned s (f := .u24be) (k := 8) (d := 256) rfl rfl rfl hbe hbe_top,
    exec_dec_unsigned s (f := .u24le) (k := 8) (d := 256) rfl rfl rfl hle hle_top⟩

/-- Settles O17: the formats of `16 + k` bits with `k` = 16. -/
theorem thirtyTwoBitDecodersWriteTheirSample : Obligations.ThirtyTwoBitDecodersWriteTheirSample := by
  intro s w0 w1 w2 w3 be le
  have hbe : (rawNat false (s.window 4) : Int) = be := rawNat_be_window_four s
  have hle : (rawNat true (s.window 4) : Int) = le := rawNat_le_window_four s
  have hbe_top : be / 65536 = w0 * 256 + w1 := by omega
  have hle_top : le / 65536 = w3 * 256 + w2 := by omega
  exact ⟨exec_dec_signed s (f := .s32be) (k := 16) (d := 65536) rfl rfl rfl hbe hbe_top,
    exec_dec_signed s (f := .s32le) (k := 16) (d := 65536) rfl rfl rfl hle hle_top,
    exec_dec_unsigned s (f := .u32be) (k := 16) (d := 65536) rfl rfl rfl hbe hbe_top,
    exec_dec_unsigned s (f := .u32le) (k := 16) (d := 65536) rfl rfl rfl hle hle_top⟩

/-! ## The value of an IEEE pattern (R130) -/

theorem scaleRat_eq (m : Nat) (e : Int) : scaleRat m e = m * (2 : Rat) ^ e := by
  rw [scaleRat]
  split
  next h =>
    obtain ⟨n, rfl⟩ := Int.eq_ofNat_of_zero_le h
    simp
  next h =>
    obtain ⟨n, rfl⟩ : ∃ n : Nat, e = -n := ⟨(-e).toNat, by omega⟩
    simp [Rat.mkRat_eq_div, div_eq_mul_inv]

section IeeeFields
variable {E F s e f : Nat}

/-- The three fields of a pattern: sign, exponent, fraction. -/
theorem ieee_fields (hs : s < 2) (he : e < 2 ^ E) (hf : f < 2 ^ F) :
    (s * 2 ^ (E + F) + e * 2 ^ F + f) / 2 ^ (E + F) % 2 = s ∧
    (s * 2 ^ (E + F) + e * 2 ^ F + f) / 2 ^ F % 2 ^ E = e ∧
    (s * 2 ^ (E + F) + e * 2 ^ F + f) % 2 ^ F = f := by
  have hp : s * 2 ^ (E + F) + e * 2 ^ F + f = f + 2 ^ F * (e + 2 ^ E * s) := by ring
  have hF : 0 < 2 ^ F := by positivity
  have hE : 0 < 2 ^ E := by positivity
  have hup : (f + 2 ^ F * (e + 2 ^ E * s)) / 2 ^ F = e + 2 ^ E * s := by
    rw [Nat.add_mul_div_left _ _ hF, Nat.div_eq_of_lt hf, Nat.zero_add]
  refine ⟨?_, ?_, ?_⟩
  · rw [hp, Nat.add_comm E F, Nat.pow_add, ← Nat.div_div_eq_div_mul, hup, Nat.add_mul_div_left _ _ hE,
      Nat.div_eq_of_lt he, Nat.zero_add, Nat.mod_eq_of_lt hs]
  · rw [hp, hup, Nat.add_mul_mod_self_left, Nat.mod_eq_of_lt he]
  · rw [hp, Nat.add_mul_mod_self_left, Nat.mod_eq_of_lt hf]

/-- The sign bit as a factor. -/
theorem signed_eq_neg_one_pow (hs : s < 2) (r : Rat) : (if s == 1 then -r else r) = (-1) ^ s * r := by
  interval_cases s <;> simp

/-- The rows of R130 by the fields of the pattern. -/
theorem ieee_of_fields (hs : s < 2) (he : e < 2 ^ E) (hf : f < 2 ^ F) :
    ieee (s * 2 ^ (E + F) + e * 2 ^ F + f) E F =
      if e = 0 then .fin ((-1) ^ s * (f * (2 : Rat) ^ (1 - ((2 : Int) ^ (E - 1) - 1) - F)))
      else if e = 2 ^ E - 1 then (if f = 0 then .inf (s == 1) else .nan)
      else .fin ((-1) ^ s * ((2 ^ F + f) * (2 : Rat) ^ ((e : Int) - (2 ^ (E - 1) - 1) - F))) := by
  obtain ⟨h1, h2, h3⟩ := ieee_fields hs he hf
  simp only [ieee, h1, h2, h3, signed_eq_neg_one_pow hs, scaleRat_eq]
  push_cast
  rfl

end IeeeFields

/-! ## The patterns the float formats read -/

theorem floatValue_four {f : Fmt} (h : f.bw = 4) (w : Window) : floatValue f w = ieee (rawNat f.le w) 8 23 := by
  rw [floatValue, if_neg (by rw [h]; decide)]

theorem floatValue_eight {f : Fmt} (h : f.bw = 8) (w : Window) : floatValue f w = ieee (rawNat f.le w) 11 52 :=
  if_pos h

/-- Settles O19: the fields determine the row of R130. -/
theorem ieeePatternsHaveTheirValue : Obligations.IeeePatternsHaveTheirValue := by
  refine ⟨fun E F s e f hE hs he hf => ?_, fun a b c d => ?_, fun hi lo hhi hlo => ?_⟩
  · have hpow : 2 ^ 1 < 2 ^ E := Nat.pow_lt_pow_right (by decide) hE
    have hp := ieee_of_fields hs he hf
    refine ⟨?_, ?_, ?_, ?_, ?_⟩
    · rintro rfl rfl
      simpa using hp
    · rintro rfl -
      rw [hp, if_pos rfl, mul_assoc]
    · intro h0 hmax
      rw [hp, if_neg (by omega), if_neg (by omega), mul_assoc]
    · rintro hmax rfl
      rw [hp, if_neg (by omega), if_pos hmax, if_pos rfl]
    · intro hmax hne
      rw [hp, if_neg (by omega), if_pos hmax, if_neg hne]
  · rw [floatValue_four rfl, floatValue_four rfl, ← rawNat_be_four]
    exact ⟨rfl, rfl⟩
  · rw [floatValue_eight rfl, floatValue_eight rfl]
    refine ⟨congrArg (ieee · 11 52) ?_, congrArg (ieee · 11 52) ?_⟩
    · exact (beNat_append hi lo).trans (by rw [hlo]; rfl)
    · exact (leNat_append lo hi).trans (by rw [hlo, Nat.mul_comm, Nat.add_comm]; rfl)

/-! ## Rounding and clamping (R10) -/

/-- A tie of a number that is not negative goes up. -/
theorem roundHalfAway_of_nonneg {q : Rat} (hq : 0 ≤ q) :
    (roundHalfAway q : Rat) - 1 / 2 ≤ q ∧ q < roundHalfAway q + 1 / 2 := by
  have hle := Rat.floor_le (q + 1 / 2)
  have hlt := Rat.lt_floor_add_one (q + 1 / 2)
  push_cast at hlt
  rw [roundHalfAway, if_pos hq]
  constructor <;> linarith

/-- A tie of a negative number goes down. -/
theorem roundHalfAway_of_neg {q : Rat} (hq : q < 0) :
    (roundHalfAway q : Rat) - 1 / 2 < q ∧ q ≤ roundHalfAway q + 1 / 2 := by
  have hle := Rat.floor_le (-q + 1 / 2)
  have hlt := Rat.lt_floor_add_one (-q + 1 / 2)
  push_cast at hlt
  rw [roundHalfAway, if_neg (not_le.2 hq)]
  push_cast
  constructor <;> linarith

theorem roundHalfAway_near (q : Rat) : (roundHalfAway q : Rat) - 1 / 2 ≤ q ∧ q ≤ roundHalfAway q + 1 / 2 := by
  rcases le_or_gt 0 q with h | h
  · exact ⟨(roundHalfAway_of_nonneg h).1, (roundHalfAway_of_nonneg h).2.le⟩
  · exact ⟨(roundHalfAway_of_neg h).1.le, (roundHalfAway_of_neg h).2⟩

/-- The clamp of R131 keeps the value inside a sample, so the narrowing loses nothing. -/
theorem floatToSample_fin_toInt (nan : Sample) (r : Rat) :
    (floatToSample nan (.fin r)).toInt = clampInt (roundHalfAway (r * 32767)) (-32768) 32767 := by
  rw [floatToSample, BitVec.toInt_ofInt_eq_self (by decide)]
  · exact le_max_left _ _
  · exact lt_of_le_of_lt (max_le (by decide) (min_le_left _ _)) (by decide)

theorem clampInt_eq_self {v lo hi : Int} (hlo : lo ≤ v) (hhi : v ≤ hi) : clampInt v lo hi = v := by
  rw [clampInt, min_eq_right hhi, max_eq_right hlo]

theorem clampInt_eq_hi {v lo hi : Int} (h : lo ≤ hi) (hv : hi ≤ v) : clampInt v lo hi = hi := by
  rw [clampInt, min_eq_left hv, max_eq_right h]

theorem clampInt_eq_lo {v lo hi : Int} (hv : v ≤ lo) : clampInt v lo hi = lo :=
  max_eq_left ((min_le_right _ _).trans hv)

section FloatToSample
variable (nan : Sample) {r : Rat}

theorem floatToSample_high (h : 32767 ≤ r * 32767) : (floatToSample nan (.fin r)).toInt = 32767 := by
  have hlt := (roundHalfAway_of_nonneg (q := r * 32767) (by linarith)).2
  have : (32766 : Rat) < roundHalfAway (r * 32767) := by linarith
  have : 32766 < roundHalfAway (r * 32767) := by exact_mod_cast this
  rw [floatToSample_fin_toInt, clampInt_eq_hi (by decide) (by omega)]

theorem floatToSample_low (h : r * 32767 ≤ -32767 - 1 / 2) : (floatToSample nan (.fin r)).toInt = -32768 := by
  have hlt := (roundHalfAway_of_neg (q := r * 32767) (by linarith)).1
  have : (roundHalfAway (r * 32767) : Rat) < -32767 := by linarith
  have : roundHalfAway (r * 32767) < -32767 := by exact_mod_cast this
  rw [floatToSample_fin_toInt, clampInt_eq_lo (by omega)]

/-- Between the bounds the clamp does nothing (R131). -/
theorem floatToSample_inside (hlo : -32767 - 1 / 2 < r * 32767) (hhi : r * 32767 < 32767) :
    (floatToSample nan (.fin r)).toInt = roundHalfAway (r * 32767) := by
  obtain ⟨hle, hge⟩ := roundHalfAway_near (r * 32767)
  have hlo' : (-32768 : Rat) < roundHalfAway (r * 32767) := by linarith
  have hhi' : (roundHalfAway (r * 32767) : Rat) < 32768 := by linarith
  have hlow : -32768 < roundHalfAway (r * 32767) := by exact_mod_cast hlo'
  have hhigh : roundHalfAway (r * 32767) < 32768 := by exact_mod_cast hhi'
  rw [floatToSample_fin_toInt, clampInt_eq_self (by omega) (by omega)]

end FloatToSample

/-! ## The meanings of the float decoders (R126 to R129, R131) -/

theorem decodeSample_float {f : Fmt} (hf : f.kind = .float) (w : Window) :
    decodeSample f w = floatToSample Config.nanSample (floatValue f w) := by
  cases f
  case f32be | f32le | f64be | f64le => rfl
  all_goals cases hf

/-- Settles O18: the decoders are `f2s` of the window's value, and each range of the product has its lemma above. -/
theorem floatDecodersWriteTheirSample : Obligations.FloatDecodersWriteTheirSample := by
  intro s p hp
  obtain ⟨hfloat, hdec⟩ : p.2.kind = .float ∧ p.2.dec = p.1 := by
    revert p
    decide
  refine ⟨s.runDec p.2, hdec ▸ exec_dec p.2 s, rfl, ?_⟩
  rw [runDec_sample, decodeSample_float hfloat]
  refine ⟨?nan, ?inf, ?negInf, fun r hr => ?finite⟩
  case nan => intro h; rw [h]; rfl
  case inf => intro h; rw [h]; rfl
  case negInf => intro h; rw [h]; rfl
  case finite =>
    rw [hr]
    refine ⟨floatToSample_high _, floatToSample_low _, fun h0 h1 => ?_, fun h0 h1 => ?_⟩
    · rw [floatToSample_inside _ (by linarith) h1]
      exact roundHalfAway_of_nonneg h0
    · rw [floatToSample_inside _ h1 (by linarith)]
      exact roundHalfAway_of_neg h0

/-! ## The pairs of formats (R132, R134) -/

/-- Settles O20: a big-endian number is by definition the little-endian one of the reversed window (R12), and the two
decoders of a pair are one function of that number. -/
theorem byteOrderPairsAgree : Obligations.ByteOrderPairsAgree := by
  intro p hp s s' hw
  have hpair : decodeSample p.2 (s.window p.1.bw).reverse = decodeSample p.1 (s.window p.1.bw) := by
    fin_cases hp <;> rfl
  exact ⟨_, _, exec_dec p.1 s, exec_dec p.2 s', by rw [runDec_sample, runDec_sample, hw, hpair]⟩

/-- Two integer formats of one width, of whatever byte order: flipping the top bit turns the unsigned reading into the
signed one, before any scaling. -/
theorem decodeSample_unsigned_eq_signed {u g : Fmt} (hu : u.kind = .unsigned) (hg : g.kind = .signed)
    (hbw : u.bw = g.bw) {n : Nat} (hn : n < 2 ^ (8 * u.bw)) :
    decodeSample u (rawBytes u.le u.bw n) = decodeSample g (rawBytes g.le g.bw (n ^^^ 2 ^ (8 * u.bw - 1))) := by
  have hbits : 256 ^ u.bw = 2 ^ (8 * u.bw) := by rw [Nat.pow_mul]
  have hpos := Fmt.bw_pos u
  have hflip : n ^^^ 2 ^ (8 * u.bw - 1) < 2 ^ (8 * u.bw) :=
    Nat.xor_lt_two_pow hn (Nat.pow_lt_pow_right (by decide) (by omega))
  have hvalue : integerValue u n = integerValue g (n ^^^ 2 ^ (8 * u.bw - 1)) := by
    rw [integerValue, if_neg (by rw [hu]; decide), integerValue, if_pos hg, ← hbw, sext_xor_topBit (by omega) hn]
  rw [decodeSample_integer (by rw [hu]; decide), decodeSample_integer (by rw [hg]; decide), rawNat_rawBytes,
    rawNat_rawBytes, ← hbw, hbits, Nat.mod_eq_of_lt hn, Nat.mod_eq_of_lt hflip, integerSample, integerSample, hvalue,
    hbw]

/-- Settles O21: each pair is an unsigned and a signed format of one width. -/
theorem unsignedIsSignedWithTheTopBitFlipped : Obligations.UnsignedIsSignedWithTheTopBitFlipped := by
  intro p hp
  obtain ⟨hu, hg, hbw⟩ : p.1.kind = .unsigned ∧ p.2.kind = .signed ∧ p.1.bw = p.2.bw := by
    revert p
    decide
  exact fun n hn => decodeSample_unsigned_eq_signed hu hg hbw hn

end Sys2Proof.Machine
end

section
/-! PROOF. The family 41_mulaw_compander.md. The byte of a sample is its sign bit and 127 less its level (segment and
mantissa, `mulawLevel`); the segment is the length of the clipped magnitude's binary form less 5. The closed form, the
monotonicity and the surjectivity go through these two facts and three about the sign and the magnitude. -/

namespace Sys2Proof.Machine

/-- `CMP.<law>` completes from every state (R150, R170). -/
theorem exec_cmp (l : Law) (s : State) : exec l.cmp s = .next (s.runCmp l) := by
  cases l <;> rfl

/-! ## The sign and the magnitude (R151) -/

section Magnitude
variable (x : Sample)

theorem magnitude_of_nonneg {x : Sample} (h : 0 ≤ x.toInt) : (magnitude x : Int) = x.toInt := by
  rw [magnitude, if_neg (by omega), Int.toNat_of_nonneg h]

theorem magnitude_of_neg {x : Sample} (h : x.toInt < 0) : (magnitude x : Int) = -x.toInt - 1 := by
  rw [magnitude, if_pos h, Int.toNat_of_nonneg (by omega)]

theorem magnitude_cast : (magnitude x : Int) = if 0 ≤ x.toInt then x.toInt else -x.toInt - 1 := by
  split
  next h => exact magnitude_of_nonneg h
  next h => exact magnitude_of_neg (by omega)

/-- The one's complement never overflows, not even at -32768. -/
theorem sample_toInt_not : (~~~x).toInt = -x.toInt - 1 := by
  rw [BitVec.toInt_eq_toNat_cond, BitVec.toInt_eq_toNat_cond, BitVec.toNat_not]
  split <;> split <;> omega

@[simp] theorem magnitude_not : magnitude (~~~x) = magnitude x := by
  rw [magnitude, magnitude, sample_toInt_not]
  split <;> split <;> omega

end Magnitude

/-- Every 15-bit magnitude is taken by a sample of either sign. -/
theorem exists_sample_of_magnitude {n : Nat} (h : n < 2 ^ 15) :
    (∃ x : Sample, 0 ≤ x.toInt ∧ magnitude x = n) ∧ ∃ x : Sample, x.toInt < 0 ∧ magnitude x = n := by
  have hx : (BitVec.ofNat 16 n).toInt = n := by
    rw [BitVec.toInt_eq_toNat_of_lt] <;> rw [BitVec.toNat_ofNat, Nat.mod_eq_of_lt] <;> omega
  have hmag : magnitude (BitVec.ofNat 16 n) = n := by
    exact_mod_cast (magnitude_of_nonneg (by omega)).trans hx
  refine ⟨⟨BitVec.ofNat 16 n, by omega, hmag⟩, ⟨~~~BitVec.ofNat 16 n, ?_, by rw [magnitude_not, hmag]⟩⟩
  rw [sample_toInt_not]
  omega

/-! ## The clipped magnitude (R151, R152) -/

theorem mulawClipmag_eq (x : Sample) : mulawClipmag x = min (magnitude x / 4 + 33) 8191 := by
  rw [mulawClipmag, Nat.shiftRight_eq_div_pow]

theorem mulawClipmag_range (x : Sample) : 33 ≤ mulawClipmag x ∧ mulawClipmag x ≤ 8191 := by
  rw [mulawClipmag_eq]
  omega

theorem mulawClipmag_mono {x y : Sample} (h : magnitude x ≤ magnitude y) : mulawClipmag x ≤ mulawClipmag y := by
  rw [mulawClipmag_eq, mulawClipmag_eq]
  omega

/-- The clipped magnitude as the closed form of R156 spells it. -/
theorem mulawClipmag_cast (x : Sample) :
    (mulawClipmag x : Int) = min ((if 0 ≤ x.toInt then x.toInt else -x.toInt - 1) / 4 + 33) 8191 := by
  rw [mulawClipmag_eq, ← magnitude_cast]
  push_cast
  rfl

/-! ## The segment (R153) -/

/-- The loop counts the binary digits of `n` below its leading one, when it has turns enough. -/
theorem mulawSegmentLoop_eq_log {turns n : Nat} (hpos : 0 < n) (hn : n < 2 ^ (turns + 1)) (k : Nat) :
    mulawSegmentLoop turns (n / 2) k = k + Nat.log 2 n := by
  induction turns generalizing n k with
  | zero =>
    rw [mulawSegmentLoop, Nat.log_of_lt (b := 2) hn, Nat.add_zero]
  | succ turns ih =>
    rw [mulawSegmentLoop]
    split
    next h => rw [Nat.log_of_lt (by omega), Nat.add_zero]
    next h =>
      rw [Nat.shiftRight_one, ih (by omega) (by rw [Nat.pow_succ] at hn; omega),
        Nat.log_of_one_lt_of_le (by decide) (by omega : 2 ≤ n)]
      omega

theorem mulawSegment_add_four {m : Nat} (hlo : 33 ≤ m) (hhi : m ≤ 8191) : mulawSegment m + 4 = Nat.log 2 m := by
  have hlog : 5 ≤ Nat.log 2 m := Nat.le_log_of_pow_le (by decide) (by omega)
  have hloop := mulawSegmentLoop_eq_log (turns := 7) (n := m / 2 ^ 5) (by omega) (by omega) 1
  rw [Nat.div_div_eq_div_mul, ← Nat.pow_succ, Nat.log_div_base_pow] at hloop
  rw [mulawSegment, Nat.shiftRight_eq_div_pow, hloop]
  omega

/-- The segment is the one of R153's table whose interval holds the clipped magnitude. -/
theorem mulawSegment_eq_iff {m s : Nat} (hlo : 33 ≤ m) (hhi : m ≤ 8191) :
    mulawSegment m = s ↔ 2 ^ (s + 4) ≤ m ∧ m < 2 ^ (s + 5) := by
  rw [← Nat.log_eq_iff (by omega), ← mulawSegment_add_four hlo hhi]
  omega

theorem mulawSegment_mono {m n : Nat} (hlo : 33 ≤ m) (hmn : m ≤ n) (hhi : n ≤ 8191) :
    mulawSegment m ≤ mulawSegment n := by
  have := Nat.log_mono_right (b := 2) hmn
  rw [← mulawSegment_add_four hlo (by omega), ← mulawSegment_add_four (by omega) hhi] at this
  omega

theorem mulawSegment_range {m : Nat} (hlo : 33 ≤ m) (hhi : m ≤ 8191) : 1 ≤ mulawSegment m ∧ mulawSegment m ≤ 8 := by
  have hfirst : mulawSegment 33 = 1 := by decide
  have hlast : mulawSegment 8191 = 8 := by decide
  exact ⟨hfirst ▸ mulawSegment_mono le_rfl hlo hhi, hlast ▸ mulawSegment_mono hlo hhi le_rfl⟩

/-- Shifted by its segment, a clipped magnitude keeps the leading one and four digits (R154). -/
theorem div_mulawSegment_range {m : Nat} (hlo : 33 ≤ m) (hhi : m ≤ 8191) :
    16 ≤ m / 2 ^ mulawSegment m ∧ m / 2 ^ mulawSegment m < 32 := by
  obtain ⟨h1, h2⟩ := (mulawSegment_eq_iff hlo hhi).1 rfl
  rw [Nat.pow_add, Nat.mul_comm] at h1 h2
  exact ⟨(Nat.le_div_iff_mul_le (by positivity)).2 h1, (Nat.div_lt_iff_lt_mul (by positivity)).2 h2⟩

/-! ## The level: exponent and mantissa before the complement (R156) -/

/-- The exponent `segno - 1` and the four digits below the leading one, as one number. -/
def mulawLevel (m : Nat) : Nat := (mulawSegment m - 1) * 16 + m / 2 ^ mulawSegment m % 16

theorem mulawLevel_eq {m : Nat} (hlo : 33 ≤ m) (hhi : m ≤ 8191) :
    mulawLevel m + 32 = mulawSegment m * 16 + m / 2 ^ mulawSegment m := by
  have := div_mulawSegment_range hlo hhi
  have := mulawSegment_range hlo hhi
  rw [mulawLevel]
  omega

/-- Inside a segment the mantissa rises; a later segment is above every mantissa of an earlier one. -/
theorem mulawLevel_mono {m n : Nat} (hlo : 33 ≤ m) (hmn : m ≤ n) (hhi : n ≤ 8191) : mulawLevel m ≤ mulawLevel n := by
  have hm := mulawLevel_eq hlo (by omega)
  have hn := mulawLevel_eq (by omega) hhi
  rcases (mulawSegment_mono hlo hmn hhi).eq_or_lt with hseg | hseg
  · have : m / 2 ^ mulawSegment n ≤ n / 2 ^ mulawSegment n := Nat.div_le_div_right hmn
    rw [hseg] at hm
    omega
  · have := div_mulawSegment_range hlo (by omega)
    have := div_mulawSegment_range (by omega) hhi
    omega

/-- A magnitude with exponent `e` and mantissa `q`: the leading one and the mantissa moved up to the segment, and one more,
since 32 itself is below the least biased magnitude. -/
def mulawExpand (e q : Nat) : Nat := 2 ^ (e + 1) * (16 + q) + 1

section Expand
variable {e q : Nat} (he : e < 8) (hq : q < 16)
include he hq

/-- The expansion lies in the interval of segment `e + 1` and in the range of the clip. -/
theorem mulawExpand_range : 33 ≤ mulawExpand e q ∧ mulawExpand e q ≤ 8191 ∧
    2 ^ (e + 1 + 4) ≤ mulawExpand e q ∧ mulawExpand e q < 2 ^ (e + 1 + 5) := by
  have hone : 2 ^ 1 ≤ 2 ^ (e + 1) := Nat.pow_le_pow_right (by decide) (by omega)
  have htop : 2 ^ (e + 1) ≤ 2 ^ 8 := Nat.pow_le_pow_right (by decide) (by omega)
  have hlo : 2 ^ (e + 1) * 16 ≤ 2 ^ (e + 1) * (16 + q) := Nat.mul_le_mul_left _ (by omega)
  have hhi : 2 ^ (e + 1) * (16 + q) ≤ 2 ^ (e + 1) * 31 := Nat.mul_le_mul_left _ (by omega)
  rw [mulawExpand, Nat.pow_add 2 (e + 1), Nat.pow_add 2 (e + 1)]
  omega

theorem mulawLevel_mulawExpand : mulawLevel (mulawExpand e q) = e * 16 + q := by
  obtain ⟨hlo, hhi, hsegment⟩ := mulawExpand_range he hq
  have hdiv : mulawExpand e q / 2 ^ (e + 1) = 16 + q := by
    rw [mulawExpand, Nat.mul_add_div (by positivity), Nat.div_eq_of_lt (Nat.one_lt_two_pow (by omega)), Nat.add_zero]
  rw [mulawLevel, (mulawSegment_eq_iff hlo hhi).2 hsegment, hdiv]
  omega

end Expand

theorem exists_mulawLevel_eq {v : Nat} (h : v < 128) : ∃ m, 33 ≤ m ∧ m ≤ 8191 ∧ mulawLevel m = v := by
  have he : v / 16 < 8 := by omega
  have hq : v % 16 < 16 := by omega
  obtain ⟨hlo, hhi, -⟩ := mulawExpand_range he hq
  exact ⟨_, hlo, hhi, by rw [mulawLevel_mulawExpand he hq]; omega⟩

/-! ## The byte (R154, R155) -/

/-- The seven bits below the sign: the two complemented nibbles do not overlap, so they are one difference. -/
theorem nibbles_eq_sub_mulawLevel {m : Nat} (hlo : 33 ≤ m) (hhi : m ≤ 8191) :
    ((8 - mulawSegment m) <<< 4 ||| (0xF - (m >>> mulawSegment m &&& 0xF))) = 127 - mulawLevel m := by
  have := mulawSegment_range hlo hhi
  rw [Nat.and_two_pow_sub_one_eq_mod _ 4, Nat.shiftRight_eq_div_pow, ← Nat.shiftLeft_add_eq_or_of_lt (by omega),
    Nat.shiftLeft_eq, mulawLevel]
  omega

/-- The byte of a sample: the inverted sign bit, then the complemented level. -/
theorem compand_mulaw_toNat (x : Sample) :
    (compand .mulaw x).toNat = (if 0 ≤ x.toInt then 128 else 0) + (127 - mulawLevel (mulawClipmag x)) := by
  obtain ⟨hlo, hhi⟩ := mulawClipmag_range x
  simp only [compand, mulawCode, nibbles_eq_sub_mulawLevel hlo hhi, BitVec.toNat_ofNat]
  split
  · have hor : 128 + (127 - mulawLevel (mulawClipmag x)) = 128 ||| (127 - mulawLevel (mulawClipmag x)) :=
      Nat.two_pow_add_eq_or_of_lt (i := 7) (by omega) 1
    rw [Nat.or_comm, ← hor]
    omega
  · omega

/-- The sign and the clipped magnitude determine the byte. -/
theorem compand_mulaw_congr {x y : Sample} (hsign : 0 ≤ x.toInt ↔ 0 ≤ y.toInt)
    (hclip : mulawClipmag x = mulawClipmag y) : compand .mulaw x = compand .mulaw y :=
  BitVec.eq_of_toNat_eq (by rw [compand_mulaw_toNat, compand_mulaw_toNat, hclip, if_congr hsign rfl rfl])

theorem compand_mulaw_not (x : Sample) : compand .mulaw (~~~x) = compand .mulaw x ^^^ 0x80#8 := by
  have hclip : mulawClipmag (~~~x) = mulawClipmag x := by rw [mulawClipmag, magnitude_not, mulawClipmag]
  apply BitVec.eq_of_toNat_eq
  rw [BitVec.toNat_xor, show (0x80#8).toNat = 2 ^ 7 from rfl, xor_topBit (compand .mulaw x).isLt,
    compand_mulaw_toNat, compand_mulaw_toNat, hclip, sample_toInt_not]
  split <;> split <;> split <;> omega

/-- Settles O23: the level in `compand_mulaw_toNat` is the segment and the mantissa of the closed form. -/
theorem mulawWritesTheClosedForm : Obligations.MulawWritesTheClosedForm := by
  refine ⟨fun st => ?closedForm, compand_mulaw_not, fun x y hsign hmag => ?dependence⟩
  case closedForm =>
    obtain ⟨hlo, hhi⟩ := mulawClipmag_range st.sample
    obtain ⟨hone, height⟩ := mulawSegment_range hlo hhi
    obtain ⟨hge, hlt⟩ := (mulawSegment_eq_iff hlo hhi).1 rfl
    have hbyte := compand_mulaw_toNat st.sample
    have hnot : (~~~compand .mulaw st.sample).toNat = 255 - (compand .mulaw st.sample).toNat := BitVec.toNat_not
    have hmantissa : ((mulawClipmag st.sample / 2 ^ mulawSegment (mulawClipmag st.sample) % 16 : Nat) : Int) =
        mulawClipmag st.sample / 2 ^ mulawSegment (mulawClipmag st.sample) % 16 := by push_cast; rfl
    rw [mulawLevel] at hbyte
    refine ⟨st.runCmp .mulaw, mulawSegment (mulawClipmag st.sample), exec_cmp .mulaw st, rfl, hone, height, ?_⟩
    rw [← mulawClipmag_cast, runCmp_code, ← hmantissa]
    refine ⟨mod_cast hge, mod_cast hlt, ?_, ?_⟩ <;> split at hbyte <;> omega
  case dependence =>
    exact compand_mulaw_congr (by omega) (by rw [mulawClipmag_eq, mulawClipmag_eq, hmag])

/-! ## Monotonicity (R158) -/

theorem compand_mulaw_anti {x y : Sample} (hsign : 0 ≤ x.toInt ↔ 0 ≤ y.toInt) (h : magnitude x ≤ magnitude y) :
    compand .mulaw y ≤ compand .mulaw x := by
  have := mulawClipmag_range x
  have := mulawClipmag_range y
  have := mulawLevel_mono (by omega) (mulawClipmag_mono h) (by omega)
  rw [BitVec.le_def, compand_mulaw_toNat, compand_mulaw_toNat, if_congr hsign rfl rfl]
  omega

/-- Settles O25: on either side of zero the order of the samples is an order of their magnitudes. -/
theorem mulawIsMonotone : Obligations.MulawIsMonotone := by
  refine ⟨fun x y hx hxy => ?nonneg, fun x y hyx hx => ?neg⟩
  case nonneg =>
    have := magnitude_of_nonneg hx
    have := magnitude_of_nonneg (hx.trans hxy)
    exact compand_mulaw_anti (by omega) (by omega)
  case neg =>
    have := magnitude_of_neg hx
    have := magnitude_of_neg (hyx.trans_lt hx)
    exact compand_mulaw_anti (by omega) (by omega)

/-! ## The table and the bytes produced (R157) -/

theorem compand_mulaw_surjective (c : Byte) : ∃ x : Sample, compand .mulaw x = c := by
  have hc := c.isLt
  obtain ⟨m, hlo, hhi, hlevel⟩ := exists_mulawLevel_eq (v := 127 - c.toNat % 128) (by omega)
  have hbyte : ∀ x : Sample, magnitude x = 4 * (m - 33) →
      (compand .mulaw x).toNat = (if 0 ≤ x.toInt then 128 else 0) + c.toNat % 128 := by
    intro x hx
    have hclip : mulawClipmag x = m := by rw [mulawClipmag_eq, hx]; omega
    rw [compand_mulaw_toNat, hclip, hlevel]
    omega
  obtain ⟨⟨x, hx, hxm⟩, y, hy, hym⟩ := exists_sample_of_magnitude (n := 4 * (m - 33)) (by omega)
  rcases le_or_gt 128 c.toNat with h | h
  · exact ⟨x, BitVec.eq_of_toNat_eq (by rw [hbyte x hxm, if_pos hx]; omega)⟩
  · exact ⟨y, BitVec.eq_of_toNat_eq (by rw [hbyte y hym, if_neg (by omega)]; omega)⟩

/-- Settles O24: each row by running the compander, the bytes by `compand_mulaw_surjective`. -/
theorem mulawCornerCases : Obligations.MulawCornerCases :=
  ⟨by decide, compand_mulaw_surjective⟩

end Sys2Proof.Machine
end

section
/-! PROOF. The family 42_alaw_compander.md. The byte of a sample is its sign bit and its level, under the line code 0x55.
The level of a magnitude `n` is one formula for the linear segment and the seven others: `16 * k + n / 2 ^ k`, where the
shift `k = alawShift n` leaves a number below 32. The obligations go through that formula and the range of the shift. -/

namespace Sys2Proof.Machine

/-! ## The magnitude (R171) -/

theorem alawMagnitude_eq (x : Sample) : alawMagnitude x = magnitude x / 16 := by
  rw [alawMagnitude, Nat.shiftRight_eq_div_pow]

theorem alawMagnitude_lt (x : Sample) : alawMagnitude x < 2 ^ 11 := by
  have hmag := magnitude_cast x
  have hlo := BitVec.le_toInt x
  have hhi := BitVec.toInt_lt (x := x)
  rw [alawMagnitude_eq]
  split at hmag <;> omega

/-- The magnitude as the closed form of R172 spells it. -/
theorem alawMagnitude_cast (x : Sample) :
    (alawMagnitude x : Int) = (if x.toInt < 0 then -x.toInt - 1 else x.toInt) / 16 := by
  have hmag := magnitude_cast x
  rw [alawMagnitude_eq]
  split at hmag <;> split <;> omega

/-! ## The shift of a segment (R172) -/

/-- The halvings that bring a magnitude below 32: none up to 31, then the length of the binary form less 5. -/
def alawShift (n : Nat) : Nat := Nat.log 2 n - 4

/-- The shift leaves the leading one and four digits, or, when it is 0, the magnitude itself. -/
theorem alawShift_eq_iff {n k : Nat} : alawShift n = k ↔ n / 2 ^ k < 32 ∧ (k = 0 ∨ 16 ≤ n / 2 ^ k) := by
  have hlog : Nat.log 2 (n / 2 ^ k) = Nat.log 2 n - k := Nat.log_div_base_pow 2 n k
  have hhi : n / 2 ^ k < 2 ^ 5 ↔ Nat.log 2 (n / 2 ^ k) < 5 :=
    ⟨Nat.log_lt_of_lt_pow' (by decide), Nat.lt_pow_of_log_lt (by decide)⟩
  have hlo : n / 2 ^ k < 2 ^ 4 ↔ Nat.log 2 (n / 2 ^ k) < 4 :=
    ⟨Nat.log_lt_of_lt_pow' (by decide), Nat.lt_pow_of_log_lt (by decide)⟩
  rw [alawShift]
  omega

theorem div_alawShift_lt (n : Nat) : n / 2 ^ alawShift n < 32 :=
  (alawShift_eq_iff.1 rfl).1

theorem le_div_alawShift {n : Nat} (h : 15 < n) : 16 ≤ n / 2 ^ alawShift n := by
  rcases (alawShift_eq_iff (n := n).1 rfl).2 with hzero | hlo
  · rw [hzero]
    omega
  · exact hlo

theorem alawShift_of_lt {n : Nat} (h : n < 32) : alawShift n = 0 :=
  alawShift_eq_iff.2 ⟨by omega, .inl rfl⟩

theorem alawShift_mono {m n : Nat} (h : m ≤ n) : alawShift m ≤ alawShift n :=
  Nat.sub_le_sub_right (Nat.log_mono_right h) 4

theorem alawShift_le_of_lt {n turns : Nat} (h : n < 2 ^ (turns + 5)) : alawShift n ≤ turns := by
  have := Nat.log_lt_of_lt_pow' (by omega) h
  rw [alawShift]
  omega

theorem alawShift_half {n : Nat} (h : 31 < n) : alawShift (n / 2) + 1 = alawShift n := by
  have : 5 ≤ Nat.log 2 n := Nat.le_log_of_pow_le (by decide) (by omega)
  rw [alawShift, alawShift, Nat.log_div_base]
  omega

/-- The loop halves and counts as often as the shift says, when it has turns enough. -/
theorem alawSegmentLoop_eq_alawShift {turns n : Nat} (h : n < 2 ^ (turns + 5)) (k : Nat) :
    alawSegmentLoop turns n k = (n / 2 ^ alawShift n, k + alawShift n) := by
  induction turns generalizing n k with
  | zero => rw [alawSegmentLoop, alawShift_of_lt h, Nat.pow_zero, Nat.div_one, Nat.add_zero]
  | succ turns ih =>
    have hpow : 2 ^ (turns + 1 + 5) = 2 * 2 ^ (turns + 5) := Nat.pow_succ'
    rw [alawSegmentLoop]
    split
    next hn =>
      rw [Nat.shiftRight_one, ih (by omega), ← alawShift_half hn, Nat.div_div_eq_div_mul, ← Nat.pow_succ']
      congr 1
      omega
    next hn => rw [alawShift_of_lt (by omega), Nat.pow_zero, Nat.div_one, Nat.add_zero]

/-! ## The level: exponent and mantissa before the line code (R172) -/

/-- In the linear segment the level is the magnitude. -/
theorem alawSegment_of_le {n : Nat} (h : n ≤ 15) : alawSegment n = n := by
  rw [alawSegment, if_neg (by omega)]

/-- The implicit leading one that stays in the shifted magnitude is the 1 the exponent has more than the shift. -/
theorem alawSegment_eq {n : Nat} (h : n < 2 ^ 11) : alawSegment n = 16 * alawShift n + n / 2 ^ alawShift n := by
  rcases Nat.lt_or_ge 15 n with hn | hn
  · have := le_div_alawShift hn
    simp only [alawSegment, if_pos hn, alawSegmentLoop_eq_alawShift h, Nat.shiftLeft_eq]
    omega
  · rw [alawSegment_of_le hn, alawShift_of_lt (by omega)]
    omega

/-- Beyond the linear segment: the closed form of R172, the exponent fixed by its interval. -/
theorem exists_exponent_alawSegment_eq {n : Nat} (hn : 15 < n) (h : n < 2 ^ 11) :
    ∃ e, 1 ≤ e ∧ e ≤ 7 ∧ 2 ^ (e + 3) ≤ n ∧ n < 2 ^ (e + 4) ∧
      alawSegment n = e * 16 + n / 2 ^ (e - 1) % 16 := by
  have hle := alawShift_le_of_lt (turns := 6) h
  have hlo := le_div_alawShift hn
  have hhi := div_alawShift_lt n
  refine ⟨alawShift n + 1, by omega, by omega, ?_, ?_, ?_⟩
  · rw [Nat.add_assoc, Nat.pow_add']
    exact (Nat.le_div_iff_mul_le (by positivity)).1 hlo
  · rw [Nat.add_assoc, Nat.pow_add']
    exact (Nat.div_lt_iff_lt_mul (by positivity)).1 hhi
  · rw [alawSegment_eq h, Nat.add_sub_cancel]
    omega

theorem alawSegment_lt {n : Nat} (h : n < 2 ^ 11) : alawSegment n < 128 := by
  have := alawShift_le_of_lt (turns := 6) h
  have := div_alawShift_lt n
  rw [alawSegment_eq h]
  omega

/-- With one shift the shifted magnitude rises; a later shift is above everything an earlier one leaves. -/
theorem alawSegment_mono {m n : Nat} (hmn : m ≤ n) (h : n < 2 ^ 11) : alawSegment m ≤ alawSegment n := by
  have hm := div_alawShift_lt m
  have hn := ((alawShift_eq_iff (n := n)).1 rfl).2
  rw [alawSegment_eq (by omega), alawSegment_eq h]
  rcases (alawShift_mono hmn).eq_or_lt with hshift | hshift
  · have := Nat.div_le_div_right (c := 2 ^ alawShift n) hmn
    rw [hshift]
    omega
  · omega

/-- Every seven-bit level is taken: its exponent, less one above the linear segment, is the shift. -/
theorem exists_alawSegment_eq {v : Nat} (h : v < 128) : ∃ n < 2 ^ 11, alawSegment n = v := by
  obtain ⟨k, q, hk, hq, hlo, hv⟩ : ∃ k q, k ≤ 6 ∧ q < 32 ∧ (k = 0 ∨ 16 ≤ q) ∧ 16 * k + q = v :=
    ⟨v / 16 - 1, v - 16 * (v / 16 - 1), by omega, by omega, by omega, by omega⟩
  have hdiv : q * 2 ^ k / 2 ^ k = q := Nat.mul_div_cancel q (by positivity)
  have hlt : q * 2 ^ k < 2 ^ 11 := calc
    q * 2 ^ k < 2 ^ 5 * 2 ^ k := Nat.mul_lt_mul_of_pos_right hq (by positivity)
    _ = 2 ^ (5 + k) := (Nat.pow_add 2 5 k).symm
    _ ≤ 2 ^ 11 := Nat.pow_le_pow_right (by decide) (by omega)
  have hshift : alawShift (q * 2 ^ k) = k := alawShift_eq_iff.2 (by rw [hdiv]; exact ⟨hq, hlo⟩)
  exact ⟨q * 2 ^ k, hlt, by rw [alawSegment_eq hlt, hshift, hdiv, hv]⟩

/-! ## The byte (R173, R174) -/

/-- The line code is its own inverse. -/
theorem lineCode_lineCode (c : Byte) : c ^^^ 0x55#8 ^^^ 0x55#8 = c := by
  rw [BitVec.xor_assoc, BitVec.xor_self, BitVec.xor_zero]

/-- The byte of a sample with its line code undone: the sign bit, then the level. -/
theorem compand_alaw_xor_toNat (x : Sample) :
    (compand .alaw x ^^^ 0x55#8).toNat = (if 0 ≤ x.toInt then 128 else 0) + alawSegment (alawMagnitude x) := by
  have hlt := alawSegment_lt (alawMagnitude_lt x)
  have hor : 128 + alawSegment (alawMagnitude x) = 128 ||| alawSegment (alawMagnitude x) :=
    Nat.two_pow_add_eq_or_of_lt (i := 7) hlt 1
  rw [compand, alawCode, BitVec.ofNat_xor, lineCode_lineCode, BitVec.toNat_ofNat]
  split
  · rw [Nat.or_comm, ← hor]
    omega
  · omega

/-- The low seven bits without the line code are the level. -/
theorem compand_alaw_xor_and_toNat (x : Sample) :
    ((compand .alaw x ^^^ 0x55#8) &&& 0x7F#8).toNat = alawSegment (alawMagnitude x) := by
  have := alawSegment_lt (alawMagnitude_lt x)
  rw [BitVec.toNat_and, compand_alaw_xor_toNat, show (0x7F#8).toNat = 2 ^ 7 - 1 from rfl,
    Nat.and_two_pow_sub_one_eq_mod]
  split <;> omega

/-- A byte is determined by what stands before the line code. -/
theorem compand_alaw_eq_of_toNat {x : Sample} {c : Byte}
    (h : (if 0 ≤ x.toInt then 128 else 0) + alawSegment (alawMagnitude x) = (c ^^^ 0x55#8).toNat) :
    compand .alaw x = c :=
  (BitVec.xor_left_inj _).1 (BitVec.eq_of_toNat_eq ((compand_alaw_xor_toNat x).trans h))

theorem compand_alaw_not (x : Sample) : compand .alaw (~~~x) = compand .alaw x ^^^ 0x80#8 := by
  have hmag : alawMagnitude (~~~x) = alawMagnitude x := by rw [alawMagnitude, magnitude_not, alawMagnitude]
  have := alawSegment_lt (alawMagnitude_lt x)
  have hswap : compand .alaw x ^^^ 0x80#8 ^^^ 0x55#8 = compand .alaw x ^^^ 0x55#8 ^^^ 0x80#8 := by
    rw [BitVec.xor_assoc, BitVec.xor_comm 0x80#8, BitVec.xor_assoc]
  apply compand_alaw_eq_of_toNat
  rw [hswap, BitVec.toNat_xor, show (0x80#8).toNat = 2 ^ 7 from rfl, xor_topBit (BitVec.isLt _),
    compand_alaw_xor_toNat, hmag, sample_toInt_not]
  split <;> split <;> split <;> omega

/-- The sign and the magnitude determine the byte. -/
theorem compand_alaw_congr {x y : Sample} (hsign : 0 ≤ x.toInt ↔ 0 ≤ y.toInt)
    (hmag : alawMagnitude x = alawMagnitude y) : compand .alaw x = compand .alaw y :=
  compand_alaw_eq_of_toNat (by rw [compand_alaw_xor_toNat, hmag, if_congr hsign rfl rfl])

theorem compand_alaw_surjective (c : Byte) : ∃ x : Sample, compand .alaw x = c := by
  have hc := (c ^^^ 0x55#8).isLt
  obtain ⟨n, hn, hlevel⟩ := exists_alawSegment_eq (v := (c ^^^ 0x55#8).toNat % 128) (by omega)
  have hsegment : ∀ x : Sample, magnitude x = 16 * n →
      alawSegment (alawMagnitude x) = (c ^^^ 0x55#8).toNat % 128 := fun x hx => by
    rw [alawMagnitude_eq, hx, Nat.mul_div_cancel_left n (by decide), hlevel]
  obtain ⟨⟨x, hx, hxm⟩, y, hy, hym⟩ := exists_sample_of_magnitude (n := 16 * n) (by omega)
  rcases le_or_gt 128 (c ^^^ 0x55#8).toNat with h | h
  · exact ⟨x, compand_alaw_eq_of_toNat (by rw [hsegment x hxm, if_pos hx]; omega)⟩
  · exact ⟨y, compand_alaw_eq_of_toNat (by rw [hsegment y hym, if_neg (by omega)]; omega)⟩

/-! ## The obligations -/

/-- Settles O26: `v` is the byte without its line code, so its low seven bits are the level. -/
theorem alawWritesTheClosedForm : Obligations.AlawWritesTheClosedForm := by
  intro st x ix
  have hlt := alawMagnitude_lt st.sample
  have hlevel := alawSegment_lt hlt
  have hbyte := compand_alaw_xor_toNat st.sample
  have hix : (alawMagnitude st.sample : Int) = ix := alawMagnitude_cast st.sample
  have hmod : (compand .alaw st.sample ^^^ 0x55#8).toNat % 128 = alawSegment (alawMagnitude st.sample) := by
    split at hbyte <;> omega
  refine ⟨st.runCmp .alaw, (compand .alaw st.sample ^^^ 0x55#8).toNat, exec_cmp .alaw st, rfl, ?code, BitVec.isLt _,
    ?sign, fun hlinear => ?linear, fun hexponent => ?exponent⟩
  case code => rw [BitVec.ofNat_toNat, BitVec.setWidth_eq, lineCode_lineCode, runCmp_code]
  case sign => split at hbyte <;> omega
  case linear =>
    have := alawSegment_of_le (n := alawMagnitude st.sample) (by omega)
    omega
  case exponent =>
    obtain ⟨e, hone, hseven, hge, hlt, hv⟩ := exists_exponent_alawSegment_eq (by omega) hlt
    rw [← hix, ← Nat.cast_ofNat (n := 128), ← Int.natCast_mod, hmod, hv]
    exact ⟨e, hone, hseven, mod_cast hge, mod_cast hlt, by push_cast; rfl⟩

/-- Settles O27: the byte of `-x - 1` is that of the complement of `x`. -/
theorem alawSymmetryAndDependence : Obligations.AlawSymmetryAndDependence := by
  refine ⟨fun x _ => ?symmetry, fun x y hsign hmag => compand_alaw_congr (by omega) hmag, compand_alaw_surjective⟩
  case symmetry => rw [← sample_toInt_not, BitVec.ofInt_toInt, compand_alaw_not]

/-- Settles O29: the bits compared are the level, which rises with the magnitude. -/
theorem alawIsMonotone : Obligations.AlawIsMonotone := by
  intro x y h
  rw [BitVec.le_def, compand_alaw_xor_and_toNat, compand_alaw_xor_and_toNat]
  refine alawSegment_mono ?_ (alawMagnitude_lt y)
  rw [alawMagnitude_eq, alawMagnitude_eq]
  exact Nat.div_le_div_right h

/-- Settles O28: each row by running the compander. -/
theorem alawCornerCases : Obligations.AlawCornerCases := by
  unfold Obligations.AlawCornerCases
  decide

end Sys2Proof.Machine
end

section
/-! PROOF. The family 43_iir_lp_decimator.md: the filters, the decimator and `RESAMPLE`. One equation per meaning of `exec`
(the `LPF.*`, `DECIM`, `RESAMPLE` where it completes and where it faults); what the stages compute is said by the lemmas of
Laws/Command.lean, and `RESAMPLE` is its stages one after the other. -/

namespace Sys2Proof.Machine

/-! ## The filters (R194, R198 to R206) -/

/-- Every `LPF.*` completes with what the filter stage leaves, under the open arithmetic and coefficients. -/
theorem exec_lpf (r : Rate) (f : Fmt) (s : State) :
    exec (r.lpf f) s = .next (s.runLpf Config.lpfArith Config.coef r f) := by
  rcases r with _ | q
  · rfl
  · cases q <;> rfl

/-- Settles O30: at 8000 Hz the filter stage hands `xw` on as `yw`. -/
theorem filterAtEightThousandPassesTheWindows : Obligations.FilterAtEightThousandPassesTheWindows := by
  intro s f
  calc exec (.lpf8000 f) s
      = .next (s.runLpf Config.lpfArith Config.coef .r8000 f) := exec_lpf .r8000 f s
    _ = .next { s with yw := s.xw } := by rw [runLpf_r8000]

/-- The value `k` positions before the end of a sequence, as R194 leaves it in `Y1` and `Y2`. -/
theorem valueBefore_end (A : LpfArith) (c : Coef) (f : Fmt) (xw : List Window) (k N : Nat) :
    valueBefore A c f xw (k + 1) N = if N ≤ k then A.zero else filterValue A c f xw (N - (k + 1)) := by
  simp only [valueBefore, Nat.lt_succ_iff]

/-- Settles O31: the sequence `y` is `filterValue`, the recurrence of R194; `lpfLoop_eq`, an induction over the windows,
says that the loop computes it. -/
theorem filterFollowsTheRecurrence : Obligations.FilterFollowsTheRecurrence := by
  intro s f p hp A c N
  have hlpf : p.1 = (Rate.filt p.2).lpf f := by
    fin_cases hp <;> rfl
  refine ⟨s.runLpf A Config.coef (.filt p.2) f, filterValue A c f s.xw, by rw [hlpf, exec_lpf], runLpf_eq ..,
    runLpf_yw_length .., fun m => filterValue_of_lt A c f s.xw, fun m hm _ => filterValue_of_le A c f s.xw hm, ?_, ?_, ?_⟩
  · intro m hm
    have hget : (List.range N)[m]? = some m := List.getElem?_range hm
    rw [runLpf_filt, List.getElem?_map, hget, Option.map_some]
  · rw [runLpf_filt]
    simpa using valueBefore_end A c f s.xw 0 N
  · rw [runLpf_filt]
    exact valueBefore_end A c f s.xw 1 N

/-- The filtered windows depend on the windows read only. -/
theorem runLpf_yw_congr (A : LpfArith) (C : FiltRate → Coef) {s t : State} (h : s.xw = t.xw) (r : Rate) (f : Fmt) :
    (s.runLpf A C r f).yw = (t.runLpf A C r f).yw := by
  rcases r with _ | q
  · exact h
  · simp only [runLpf_filt, h]

/-! ## The decimator (R207) -/

/-- The number of samples kept is the ceiling of `N / S`. -/
theorem keptCount_eq_ceil {S : Nat} (hS : 0 < S) (N : Nat) : keptCount S N = (N + S - 1) / S := by
  unfold keptCount
  split
  · next h => rw [h, Nat.zero_add, Nat.div_eq_of_lt (by omega)]
  · rw [show N + S - 1 = N - 1 + S by omega, Nat.add_div_right _ hS]

theorem exec_decim (r t : Rate) (s : State) : exec (.decim r t) s = .next (s.runDecim r t) := rfl

/-- Settles O33: `DECIM` is `keepEvery` of its stride. -/
theorem decimationKeepsEveryStride : Obligations.DecimationKeepsEveryStride := by
  intro s r t S N K
  have hlen : (keepEvery S s.yw).length = K := keepEvery_length S s.yw
  have hceil : K = (N + S - 1) / S := keptCount_eq_ceil (stride_pos r t) N
  exact ⟨s.runDecim r t, exec_decim r t s, rfl, hlen, hceil, fun k hk => ⟨kept_position_lt hk, keepEvery_getElem? hk⟩⟩

/-! ## The outcome of RESAMPLE (R209, R220) -/

theorem exec_resample (f : Fmt) (r t : Rate) (ip : Bool) (ign : BitVec 1) (s : State) :
    exec (.resample f r t ip ign) s = resampleWith Config.lpfArith Config.coef f r t ip s := rfl

/-- Settles O39: true lengths pass the first check, and the second one fails. -/
theorem resampleOfUnequalSizesFaults : Obligations.ResampleOfUnequalSizesFaults := by
  intro f r t ign s htrue hne
  rw [exec_resample]
  simp [resampleWith, htrue, hne]

/-- The state of `RESAMPLE` between `DECIM` and the stores (R209): `ow` holds the kept windows. -/
def State.decimated (s : State) (f : Fmt) (r t : Rate) : State :=
  (((s.start Config.lpfArith).fetchWindows f.bw).runLpf Config.lpfArith Config.coef r f).runDecim r t

/-- `RESAMPLE` with its conditions met completes with the stores of the kept windows and its end. -/
theorem exec_resample_of_ready {s : State} {ip : Bool} (h : s.resampleReady ip) (f : Fmt) (r t : Rate)
    (ign : BitVec 1) :
    exec (.resample f r t ip ign) s = .next ((s.decimated f r t).storeKept f (resampleDst ip)).finish := by
  obtain ⟨htrue, hsize⟩ := h
  have hmatch : (!ip && s.outLen != s.inLen) = false := by
    cases ip
    · simp [hsize rfl]
    · rfl
  rw [exec_resample]
  simp [resampleWith, htrue, hmatch, State.decimated]

/-! ## The kept windows (R207, R209) -/

@[simp] theorem inputWindows_length (s : State) (f : Fmt) : (s.inputWindows f).length = s.windowCount f.bw := by
  simp [State.inputWindows]

theorem inputWindows_width (s : State) (f : Fmt) : ∀ w ∈ s.inputWindows f, w.length = f.bw := by
  simp [State.inputWindows]

section Decimated
variable (s : State) (f : Fmt) (r t : Rate)

/-- The window fetch of `RESAMPLE` reads the windows of `IN`: the start of a command leaves the buffers alone. -/
theorem start_fetchWindows_xw (A : LpfArith) : ((s.start A).fetchWindows f.bw).xw = s.inputWindows f := rfl

@[simp] theorem decimated_ow : (s.decimated f r t).ow =
    keepEvery (stride r t) (({ s with xw := s.inputWindows f } : State).runLpf Config.lpfArith Config.coef r f).yw :=
  congrArg (keepEvery (stride r t)) (runLpf_yw_congr _ _ (start_fetchWindows_xw s f _) r f)

theorem decimated_ow_length : (s.decimated f r t).ow.length = keptCount (stride r t) (s.windowCount f.bw) := by
  simp

theorem decimated_ow_width : ∀ w ∈ (s.decimated f r t).ow, w.length = f.bw := by
  intro w hw
  rw [decimated_ow] at hw
  exact runLpf_yw_width _ _ _ _ _ (inputWindows_width s f) w (keepEvery_mem hw)

@[simp] theorem decimated_windowCount (bw : Nat) : (s.decimated f r t).windowCount bw = s.windowCount bw := by
  simp [State.decimated]

@[simp] theorem decimated_readByte (sp : Space) (a : Nat) : (s.decimated f r t).readByte sp a = s.readByte sp a := by
  simp [State.decimated]

/-- The bytes the kept windows take fit in `COUNT`: they lie inside the windows of `IN` (R217). -/
theorem keptCount_mul_lt : keptCount (stride r t) (s.windowCount f.bw) * f.bw < 2 ^ 32 := calc
  keptCount (stride r t) (s.windowCount f.bw) * f.bw
    ≤ s.windowCount f.bw * f.bw := Nat.mul_le_mul_right _ keptCount_le
  _ ≤ s.inLen.toNat := windowCount_mul_le s f.bw
  _ < 2 ^ 32 := s.inLen.isLt

end Decimated

/-! ## The stores of RESAMPLE (R214, R217) -/

/-- Each kept window is read back whole from its place in the destination. -/
theorem storeKept_readBytes {s : State} {f : Fmt} {k : Nat} (sp : Space) (hw : ∀ w ∈ s.ow, w.length = f.bw)
    (hN : s.ow.length ≤ s.windowCount f.bw) (hk : k < s.ow.length) :
    (s.storeKept f sp).readBytes sp (k * f.bw) f.bw = s.ow[k] := by
  have hlen : s.ow[k].length = f.bw := hw _ (List.getElem_mem hk)
  refine List.ext_getElem (by simp [hlen]) fun i _ hi => ?_
  have hbyte : (s.storeKept f sp).readByte sp (k * f.bw + i) = s.ow[k][i] :=
    ((storeKept_readByte s f sp hw hN).1 k i hk (hlen ▸ hi)).trans (List.getD_eq_getElem _ _ hi)
  simpa [State.readBytes] using hbyte

/-- The stores and the end of `RESAMPLE` leave the registers of the host and its queue alone. -/
theorem keepsHostSide_resample (s : State) (f : Fmt) (r t : Rate) (sp : Space) :
    keepsHostSide s ((s.decimated f r t).storeKept f sp).finish := by
  have hin := storeKept_size (s.decimated f r t) f sp .input
  have hout := storeKept_size (s.decimated f r t) f sp .output
  simp_all [keepsHostSide, State.decimated, State.buffer]

/-- Settles O36: the stores put the kept windows at the front and leave the rest alone (`storeKept_readBytes`,
`storeKept_readByte`), and the windows kept are those `LPF.*` makes of the windows of `IN` (`decimated_ow`). -/
theorem resampleStoresTheKeptWindows : Obligations.ResampleStoresTheKeptWindows := by
  intro f r t ip ign s hready dst N S K
  set d := s.decimated f r t with hd
  have hK : keptCount (stride r t) N = K := keptCount_eq_ceil (stride_pos r t) N
  have hlen : d.ow.length = K := (decimated_ow_length s f r t).trans hK
  have hwidth : ∀ w ∈ d.ow, w.length = f.bw := decimated_ow_width s f r t
  have hcount : d.windowCount f.bw = N := decimated_windowCount s f r t f.bw
  have hfit : d.ow.length ≤ d.windowCount f.bw := by
    rw [hlen, hcount, ← hK]
    exact keptCount_le
  refine ⟨(d.storeKept f dst).finish, _, exec_resample_of_ready hready f r t ign, exec_lpf r f _, by simp, ?count, ?kept,
    ?frame, keepsHostSide_resample s f r t dst⟩
  case count =>
    have hlt : K * f.bw < 2 ^ 32 := hK ▸ keptCount_mul_lt s f r t
    simpa [hlen] using hlt
  case kept =>
    intro k hk
    have hk' : k < d.ow.length := hlen ▸ hk
    calc (d.storeKept f dst).finish.readBytes dst (k * f.bw) f.bw
        = (d.storeKept f dst).readBytes dst (k * f.bw) f.bw := readBytes_congr fun i _ => finish_readByte _ _ _
      _ = d.ow[k] := storeKept_readBytes dst hwidth hfit hk'
      _ = List.getD _ (k * S) [] := by simp [hd, keepEvery, stride, S]
  case frame =>
    intro sp a h
    rw [finish_readByte, (storeKept_readByte d f dst hwidth hfit).2 sp a (hcount ▸ h)]
    exact decimated_readByte s f r t sp a

end Sys2Proof.Machine
end

section
/-! PROOF. The family 44_encode_sequencer.md: `ENCODE` and `NOP`. One equation per outcome of `ENCODE` (untrue lengths, the
one exception, the walk with and without room); what the walk does is said by `encodeWalk_next` and `encodeWalk_overrun` of
Laws/Command.lean. -/

namespace Sys2Proof.Machine

/-! ## NOP (R240) -/

theorem exec_nop (ign : BitVec 16) (s : State) : exec (.nop ign) s = .next s := rfl

theorem cwCmd_eq_zero_iff {v : Word} : cwCmd v = 0#2 ↔ v.toNat % 4 = 0 := by
  simp [cwCmd, ← BitVec.toNat_inj]

theorem cwReserved_eq_zero_iff {v : Word} : cwReserved v = 0#14 ↔ v.toNat < 2 ^ 18 := by
  have hv := v.isLt
  rw [cwReserved, ← BitVec.toNat_inj, BitVec.extractLsb'_toNat, Nat.shiftRight_eq_div_pow, BitVec.toNat_zero]
  omega

/-- A word whose `CMD` and reserved field are 0 spells `NOP`; the bits between them are ignored (R81). -/
theorem decode_eq_nop {v : Word} (hcmd : cwCmd v = 0#2) (hres : cwReserved v = 0#14) :
    decode v = .ok (.nop (v.extractLsb' 2 16)) := by
  rw [decode, if_neg (not_not.2 hres), if_pos hcmd]

/-- Settles O51: such a word spells `NOP` (`decode_eq_nop`), and `NOP` keeps the state the launch wrote `CW` in. -/
theorem nopChangesNothing : Obligations.NopChangesNothing := by
  refine ⟨fun s ign => exec_nop ign s, fun s v hcmd hres => ?_⟩
  rw [launch, decode_eq_nop (cwCmd_eq_zero_iff.2 hcmd) (cwReserved_eq_zero_iff.2 hres)]
  exact exec_nop _ _

/-! ## The room of ENCODE (R232, R298) -/

/-- With windows of two bytes or more the check of R232, which counts two bytes a window, leaves room for every window. -/
theorem windowCount_le_outLen {s : State} {bw : Nat} (hbw : 2 ≤ bw) (hcheck : s.inLen.toNat / 2 ≤ s.outLen.toNat) :
    s.windowCount bw ≤ s.outLen.toNat :=
  (Nat.div_le_div_left hbw (by decide)).trans hcheck

/-- The conditions under which `ENCODE` runs to its end are true lengths, the check, and room for every window. -/
theorem encodeReady_iff {s : State} {f : Fmt} : s.encodeReady f ↔
    s.lengthsTrue = true ∧ s.inLen.toNat / 2 ≤ s.outLen.toNat ∧ s.windowCount f.bw ≤ s.outLen.toNat := by
  refine and_congr_right fun _ => and_congr_right fun hcheck => ?_
  rcases Nat.lt_or_ge f.bw 2 with hone | htwo
  · have hbw : f.bw = 1 := by have := Fmt.bw_pos f; omega
    simp [State.windowCount, hbw]
  · exact iff_of_true (fun hone => by omega) (windowCount_le_outLen htwo hcheck)

/-! ## The outcomes of ENCODE (R230, R232, R237) -/

section Outcomes
variable {s : State} (l : Law) (f : Fmt) (ign : BitVec 9)

theorem exec_encode (s : State) : exec (.encode l f ign) s = execEncode l f s := rfl

theorem exec_encode_of_untrue (h : s.lengthsTrue = false) :
    exec (.encode l f ign) s = .fault .bufferLengthUntrue := by
  simp [exec_encode, execEncode, h]

theorem exec_encode_of_tooSmall (htrue : s.lengthsTrue = true) (h : s.outLen.toNat < s.inLen.toNat / 2) :
    exec (.encode l f ign) s = .next (s.start Config.lpfArith).raiseOutputBufferTooSmall := by
  simp [exec_encode, execEncode, htrue, h]

/-- Past both checks `ENCODE` is its walk over the windows of `IN`. -/
theorem exec_encode_of_check (htrue : s.lengthsTrue = true) (h : s.inLen.toNat / 2 ≤ s.outLen.toNat) :
    exec (.encode l f ign) s = encodeWalk l f (s.windowCount f.bw) (s.start Config.lpfArith) := by
  simp [exec_encode, execEncode, htrue, Nat.not_lt.2 h]

/-- `POS` never wraps: the windows lie inside `IN` (R54). -/
theorem start_pos_add_windows_lt (A : LpfArith) : (s.start A).pos.toNat + s.windowCount f.bw * f.bw < 2 ^ 32 := calc
  (s.start A).pos.toNat + s.windowCount f.bw * f.bw
    = s.windowCount f.bw * f.bw := Nat.zero_add _
  _ ≤ s.inLen.toNat := windowCount_mul_le s f.bw
  _ < 2 ^ 32 := s.inLen.isLt

/-- Without room for every window `ENCODE` faults, having stored the bytes of the first `OUT_LEN` windows (R237). -/
theorem exec_encode_of_noRoom (htrue : s.lengthsTrue = true) (hcheck : s.inLen.toNat / 2 ≤ s.outLen.toNat)
    (hroom : s.outLen.toNat < s.windowCount f.bw) :
    exec (.encode l f ign) s = .fault (.outputOverrun ((List.range s.outLen.toNat).map (s.codeOfWindow l f))) := by
  rw [exec_encode_of_check l f ign htrue hcheck,
    encodeWalk_overrun l f _ _ (Nat.zero_le _) (by simpa using hroom) (start_pos_add_windows_lt f _)]
  simp [State.readBytes, State.codeOfWindow]

/-- The four outcomes of `ENCODE`: the fault of untrue lengths, the one exception, the walk that `encodeReady` lets end,
and the walk that runs out of room. -/
theorem exec_encode_cases (s : State) :
    exec (.encode l f ign) s = .fault .bufferLengthUntrue ∨
    exec (.encode l f ign) s = .next (s.start Config.lpfArith).raiseOutputBufferTooSmall ∨
    s.encodeReady f ∨
    (s.inLen.toNat / 2 ≤ s.outLen.toNat ∧ s.outLen.toNat < s.windowCount f.bw ∧ exec (.encode l f ign) s =
      .fault (.outputOverrun ((List.range s.outLen.toNat).map (s.codeOfWindow l f)))) := by
  cases htrue : s.lengthsTrue with
  | false => exact .inl (exec_encode_of_untrue l f ign htrue)
  | true =>
    rcases Nat.lt_or_ge s.outLen.toNat (s.inLen.toNat / 2) with hsmall | hcheck
    · exact .inr (.inl (exec_encode_of_tooSmall l f ign htrue hsmall))
    rcases Nat.lt_or_ge s.outLen.toNat (s.windowCount f.bw) with hover | hroom
    · exact .inr (.inr (.inr ⟨hcheck, hover, exec_encode_of_noRoom l f ign htrue hcheck hover⟩))
    · exact .inr (.inr (.inl (encodeReady_iff.2 ⟨htrue, hcheck, hroom⟩)))

end Outcomes

/-! ## The obligations on ENCODE -/

/-- Settles O43: the conditions leave room for every window (`encodeReady_iff`), and the walk from the start, where
`COUNT` and `POS` are 0, is `encodeWalk_next`. -/
theorem encodeStoresOneByteAWindow : Obligations.EncodeStoresOneByteAWindow := by
  intro l f ign s hready N
  obtain ⟨htrue, hcheck, hroom⟩ := encodeReady_iff.1 hready
  obtain ⟨t, hwalk, hstatus, hcount, hpos, hstored, hkept, hin, hhost, hdraws, -⟩ :=
    encodeWalk_next l f (s.windowCount f.bw) (s.start Config.lpfArith) (by simpa using hroom) (start_pos_add_windows_lt f _)
  simp only [start_count, start_pos, BitVec.toNat_zero, Nat.zero_add, start_readByte] at hcount hpos hstored hkept
  refine ⟨t, (exec_encode_of_check l f ign htrue hcheck).trans hwalk, hstatus, hcount, hpos, hstored,
    fun a ha => hkept a (.inr ha), fun a => ?_, hhost, hdraws⟩
  rw [State.readByte, State.buffer, hin]; rfl

/-- Settles O44: with the error the state is the one the start left, but for `STATUS`; without it the frame is that of
`encodeStoresOneByteAWindow`, and `STATUS` is 0x01, which has no `ERR`. -/
theorem encodeFrame : Obligations.EncodeFrame := by
  intro l f ign s t h
  rcases exec_encode_cases l f ign s with hfault | hraise | hready | ⟨-, -, hfault⟩
  · cases h.symm.trans hfault
  · cases h.symm.trans hraise
    simp [keepsBytes, keepsHostSide]
  · obtain ⟨t', hnext, hstatus, hcount, -, -, hkept, hin, hhost, hdraws⟩ :=
      encodeStoresOneByteAWindow l f ign s hready
    cases h.symm.trans hnext
    refine ⟨fun a ha => hkept a (hcount ▸ ha), hin, hhost, hdraws, fun herr => ?_⟩
    rw [hstatus] at herr
    exact absurd herr (by decide)
  · cases h.symm.trans hfault

/-- Settles O45: a one-byte format has as many windows as bytes, so the walk runs out of room; with two bytes or more past
the check it never does (`windowCount_le_outLen`). -/
theorem encodeOverrunsOnlyOneByteFormats : Obligations.EncodeOverrunsOnlyOneByteFormats := by
  refine ⟨fun l f ign s hbw htrue hcheck hover => ?oneByte, fun l f ign s bs hbw h => ?wider⟩
  case oneByte =>
    have hN : s.windowCount f.bw = s.inLen.toNat := by rw [State.windowCount, hbw, Nat.div_one]
    exact exec_encode_of_noRoom l f ign htrue hcheck (hN ▸ hover)
  case wider =>
    rcases exec_encode_cases l f ign s with huntrue | hraise | hready | ⟨hcheck, hover, -⟩
    · cases h.symm.trans huntrue
    · cases h.symm.trans hraise
    · obtain ⟨t, hnext, -⟩ := encodeStoresOneByteAWindow l f ign s hready
      cases h.symm.trans hnext
    · exact absurd (windowCount_le_outLen hbw hcheck) (Nat.not_le.2 hover)

end Sys2Proof.Machine
end

section
/-! PROOF. The family 60_exceptions.md: what the one exception leaves. `exec_encode_of_tooSmall` says when it is taken and
that it is taken from the state the start leaves; the `start_` and `raise_` laws of Laws/State.lean say what each register
of that state holds. -/

namespace Sys2Proof.Machine

/-- The word the exception leaves in `STATUS` has `DONE`, `ERR` and `ERRCODE` 1 (R28, R261). -/
theorem statusTooSmall_fields : statusDone statusTooSmall = true ∧ statusErr statusTooSmall = true ∧
    statusErrCode statusTooSmall = 1#4 := by
  decide

/-- The start clears the whole of `WIN` (R231). -/
theorem start_win_getElem (A : LpfArith) (s : State) (i : Fin 8) : (s.start A).win[i] = 0#8 := by
  fin_cases i <;> rfl

/-- Settles O42: under these hypotheses `ENCODE` raises from the state its start left (`exec_encode_of_tooSmall`). Raising
writes `STATUS` alone, so every other register holds what the start left in it; only the bytes of `WIN` need a lemma
(`start_win_getElem`). -/
theorem encodeRaisesOutputBufferTooSmall : Obligations.EncodeRaisesOutputBufferTooSmall := by
  intro l f ign s htrue hsmall
  obtain ⟨hdone, herr, hcode⟩ := statusTooSmall_fields
  refine ⟨_, exec_encode_of_tooSmall l f ign htrue hsmall, statusTooSmall_eq, hdone, herr, hcode, ?registers⟩
  simpa [keepsHostSide] using start_win_getElem Config.lpfArith s

end Sys2Proof.Machine
end

section
/-! PROOF. The family 30_encoding.md, the decoder and the encoder (R80 to R86, R90 to R92). The fields of a word as numbers,
the codes of formats, rates and laws, one equation of the decoder per command and its one inversion (`decode_ok_cases`);
and a case principle for the instructions (`Instr.byUnit`), by which the rules of the whole machine are proved too. -/

namespace Sys2Proof.Machine

/-! ## The instructions by unit (R2) -/

/-- Every instruction is a command or a micro-operation some fields select: `DEC.*` of a format, `CMP.*` of a law, `LPF.*` of
a rate, `DECIM` (R81 to R86). -/
theorem Instr.byUnit {P : Instr → Prop} (nop : ∀ ign, P (.nop ign)) (encode : ∀ l f ign, P (.encode l f ign))
    (resample : ∀ f r t ip ign, P (.resample f r t ip ign)) (dec : ∀ f : Fmt, P f.dec) (cmp : ∀ l : Law, P l.cmp)
    (lpf : ∀ (r : Rate) (f : Fmt), P (r.lpf f)) (decim : ∀ r t, P (.decim r t)) (i : Instr) : P i := by
  cases i
  case nop ign => exact nop ign
  case encode l f ign => exact encode l f ign
  case resample f r t ip ign => exact resample f r t ip ign
  case decS8 => exact dec .s8
  case decU8 => exact dec .u8
  case decS16be => exact dec .s16be
  case decS16le => exact dec .s16le
  case decU16be => exact dec .u16be
  case decU16le => exact dec .u16le
  case decS24be => exact dec .s24be
  case decS24le => exact dec .s24le
  case decU24be => exact dec .u24be
  case decU24le => exact dec .u24le
  case decS32be => exact dec .s32be
  case decS32le => exact dec .s32le
  case decU32be => exact dec .u32be
  case decU32le => exact dec .u32le
  case decF32be => exact dec .f32be
  case decF32le => exact dec .f32le
  case decF64be => exact dec .f64be
  case decF64le => exact dec .f64le
  case cmpMulaw => exact cmp .mulaw
  case cmpAlaw => exact cmp .alaw
  case lpf8000 f => exact lpf .r8000 f
  case lpf11025 f => exact lpf (.filt .r11025) f
  case lpf16000 f => exact lpf (.filt .r16000) f
  case lpf22050 f => exact lpf (.filt .r22050) f
  case lpf32000 f => exact lpf (.filt .r32000) f
  case lpf44100 f => exact lpf (.filt .r44100) f
  case lpf48000 f => exact lpf (.filt .r48000) f
  case lpf96000 f => exact lpf (.filt .r96000) f
  case lpf192000 f => exact lpf (.filt .r192000) f
  case decim r t => exact decim r t

@[simp] theorem dec_cls (f : Fmt) : f.dec.cls = .decoder := by cases f <;> rfl
@[simp] theorem cmp_cls (l : Law) : l.cmp.cls = .compander := by cases l <;> rfl
@[simp] theorem lpf_cls (r : Rate) (f : Fmt) : (r.lpf f).cls = .filter := by
  rcases r with _ | q
  · rfl
  · cases q <;> rfl

theorem wellFormed_iff_cls (i : Instr) : i.wellFormed = true ↔ i.cls = .command := beq_iff_eq

/-! ## The fields of a word as numbers (R80) -/

section Fields
variable (w : Word)

theorem cwCmd_toNat : (cwCmd w).toNat = w.toNat % 4 := by simp [cwCmd]
theorem cwLaw_toNat : (cwLaw w).toNat = w.toNat / 4 % 2 := by simp [cwLaw, Nat.shiftRight_eq_div_pow]
theorem cwFmt_toNat : (cwFmt w).toNat = w.toNat / 8 % 64 := by simp [cwFmt, Nat.shiftRight_eq_div_pow]
theorem cwRate_toNat : (cwRate w).toNat = w.toNat / 512 % 16 := by simp [cwRate, Nat.shiftRight_eq_div_pow]
theorem cwTarget_toNat : (cwTarget w).toNat = w.toNat / 8192 % 16 := by simp [cwTarget, Nat.shiftRight_eq_div_pow]
theorem cwInplace_toNat : (cwInplace w).toNat = w.toNat / 131072 % 2 := by simp [cwInplace, Nat.shiftRight_eq_div_pow]

/-- The bits `NOP` ignores, `CW[17:2]`. -/
theorem nopIgnored_toNat : (w.extractLsb' 2 16).toNat = w.toNat / 4 % 65536 := by simp [Nat.shiftRight_eq_div_pow]

/-- The bits `ENCODE` ignores, `CW[17:9]`. -/
theorem encodeIgnored_toNat : (w.extractLsb' 9 9).toNat = w.toNat / 512 % 512 := by simp [Nat.shiftRight_eq_div_pow]

end Fields

/-! ## The codes (R82, R84, R86) -/

@[simp] theorem fmtOfCode_code (f : Fmt) : fmtOfCode f.code = some f := by cases f <;> rfl

@[simp] theorem rateOfCode_code (r : Rate) : rateOfCode r.code = some r := by
  rcases r with _ | q
  · rfl
  · cases q <;> rfl

@[simp] theorem lawOfCode_code (l : Law) : lawOfCode l.code = l := by cases l <;> rfl

theorem code_of_fmtOfCode {c : BitVec 6} {f : Fmt} : fmtOfCode c = some f → f.code = c := by
  cases f <;> revert c <;> decide

theorem code_of_rateOfCode {c : BitVec 4} {r : Rate} : rateOfCode c = some r → r.code = c := by
  rcases r with _ | q
  · revert c; decide
  · cases q <;> revert c <;> decide

@[simp] theorem code_lawOfCode (c : BitVec 1) : (lawOfCode c).code = c := by
  revert c
  decide

/-- The 18 codes of R84. -/
theorem fmtOfCode_eq_none_iff (c : BitVec 6) : fmtOfCode c = none ↔ c.toNat ∉
    [0x00, 0x02, 0x03, 0x04, 0x05, 0x06, 0x07, 0x10, 0x12, 0x13, 0x14, 0x15, 0x16, 0x17, 0x26, 0x27, 0x2E, 0x2F] := by
  revert c
  decide

/-- The rate codes 9 to 15 are reserved (R86). -/
theorem rateOfCode_eq_none_iff (c : BitVec 4) : rateOfCode c = none ↔ 8 < c.toNat := by
  revert c
  decide

/-! ## The decoder by command (R81, R90, R91) -/

section Decoder
variable {w : Word} {f : Fmt} {r t : Rate}

theorem command_cases (w : Word) : cwCmd w = 0#2 ∨ cwCmd w = 1#2 ∨ cwCmd w = 2#2 ∨ cwCmd w = 3#2 := by
  generalize cwCmd w = c
  revert c
  decide

/-- A word with `CMD` = 1 and a format spells `ENCODE`. -/
theorem decode_eq_encode (hres : cwReserved w = 0#14) (hcmd : cwCmd w = 1#2) (hf : fmtOfCode (cwFmt w) = some f) :
    decode w = .ok (.encode (lawOfCode (cwLaw w)) f (w.extractLsb' 9 9)) := by
  simp [decode, hres, hcmd, hf]

/-- A word with `CMD` = 2, a format and two rates spells `RESAMPLE`. -/
theorem decode_eq_resample (hres : cwReserved w = 0#14) (hcmd : cwCmd w = 2#2) (hf : fmtOfCode (cwFmt w) = some f)
    (hr : rateOfCode (cwRate w) = some r) (ht : rateOfCode (cwTarget w) = some t) :
    decode w = .ok (.resample f r t (cwInplace w == 1#1) (cwLaw w)) := by
  simp [decode, hres, hcmd, hf, hr, ht]

/-- What a word that decodes looks like, and what it decodes to. -/
theorem decode_ok_cases {i : Instr} (h : decode w = .ok i) : cwReserved w = 0#14 ∧
    ((cwCmd w = 0#2 ∧ i = .nop (w.extractLsb' 2 16)) ∨
    (∃ f, cwCmd w = 1#2 ∧ fmtOfCode (cwFmt w) = some f ∧
      i = .encode (lawOfCode (cwLaw w)) f (w.extractLsb' 9 9)) ∨
    (∃ f r t, cwCmd w = 2#2 ∧ fmtOfCode (cwFmt w) = some f ∧ rateOfCode (cwRate w) = some r ∧
      rateOfCode (cwTarget w) = some t ∧ i = .resample f r t (cwInplace w == 1#1) (cwLaw w))) := by
  by_cases hres : cwReserved w = 0#14
  swap
  · simp [decode, hres] at h
  refine ⟨hres, ?_⟩
  obtain hcmd | hcmd | hcmd | hcmd := command_cases w
  · exact .inl ⟨hcmd, by simpa [decode_eq_nop hcmd hres] using h.symm⟩
  · cases hf : fmtOfCode (cwFmt w) with
    | none => simp [decode, hres, hcmd, hf] at h
    | some f => exact .inr (.inl ⟨f, hcmd, rfl, by simpa [decode_eq_encode hres hcmd hf] using h.symm⟩)
  · cases hf : fmtOfCode (cwFmt w) with
    | none => simp [decode, hres, hcmd, hf] at h
    | some f =>
      cases hr : rateOfCode (cwRate w) with
      | none => simp [decode, hres, hcmd, hf, hr] at h
      | some r =>
        cases ht : rateOfCode (cwTarget w) with
        | none => simp [decode, hres, hcmd, hf, hr, ht] at h
        | some t =>
          exact .inr (.inr ⟨f, r, t, hcmd, rfl, rfl, rfl, by simpa [decode_eq_resample hres hcmd hf hr ht] using h.symm⟩)
  · simp [decode, hres, hcmd] at h

end Decoder

/-! ## The encoder -/

section Encoder
variable (ip : BitVec 1) (tg ra : BitVec 4) (fm : BitVec 6) (la : BitVec 1) (c : BitVec 2)

theorem commandWord_toNat : (commandWord ip tg ra fm la c).toNat = c.toNat + la.toNat * 2 ^ 2 + fm.toNat * 2 ^ 3 +
    ra.toNat * 2 ^ 9 + tg.toNat * 2 ^ 13 + ip.toNat * 2 ^ 17 := by
  have := ip.isLt; have := tg.isLt; have := ra.isLt; have := fm.isLt; have := la.isLt; have := c.isLt
  rw [commandWord, BitVec.toNat_ofNat, Nat.mod_eq_of_lt (by omega)]

/-- The fields of a word built from fields are the fields. -/
theorem commandWord_fields : cwLaw (commandWord ip tg ra fm la c) = la ∧ cwFmt (commandWord ip tg ra fm la c) = fm ∧
    cwRate (commandWord ip tg ra fm la c) = ra ∧ cwTarget (commandWord ip tg ra fm la c) = tg ∧
    cwInplace (commandWord ip tg ra fm la c) = ip := by
  have := ip.isLt; have := tg.isLt; have := ra.isLt; have := fm.isLt; have := la.isLt; have := c.isLt
  have h := commandWord_toNat ip tg ra fm la c
  refine ⟨?_, ?_, ?_, ?_, ?_⟩ <;> apply BitVec.eq_of_toNat_eq
  · rw [cwLaw_toNat]; omega
  · rw [cwFmt_toNat]; omega
  · rw [cwRate_toNat]; omega
  · rw [cwTarget_toNat]; omega
  · rw [cwInplace_toNat]; omega

/-- A word whose reserved field is 0 is built from its fields. -/
theorem commandWord_of_fields {w : Word} (hres : cwReserved w = 0#14) :
    commandWord (cwInplace w) (cwTarget w) (cwRate w) (cwFmt w) (cwLaw w) (cwCmd w) = w := by
  have := cwReserved_eq_zero_iff.1 hres
  apply BitVec.eq_of_toNat_eq
  rw [commandWord_toNat, cwInplace_toNat, cwTarget_toNat, cwRate_toNat, cwFmt_toNat, cwLaw_toNat, cwCmd_toNat]
  omega

end Encoder

theorem encode_nop_toNat (ign : BitVec 16) : (encode (.nop ign)).toNat = ign.toNat * 2 ^ 2 := by
  have := ign.isLt
  rw [encode, BitVec.toNat_ofNat, Nat.mod_eq_of_lt (by omega)]

theorem encode_encode_toNat (l : Law) (f : Fmt) (ign : BitVec 9) : (encode (.encode l f ign)).toNat =
    1 + l.code.toNat * 2 ^ 2 + f.code.toNat * 2 ^ 3 + ign.toNat * 2 ^ 9 := by
  have := ign.isLt; have := f.code.isLt; have := l.code.isLt
  rw [encode, BitVec.toNat_ofNat, Nat.mod_eq_of_lt (by omega)]

/-! ## Decode and encode agree -/

theorem decode_encode_nop (ign : BitVec 16) : decode (encode (.nop ign)) = .ok (.nop ign) := by
  have := ign.isLt
  have h := encode_nop_toNat ign
  have hign : (encode (.nop ign)).extractLsb' 2 16 = ign := by
    apply BitVec.eq_of_toNat_eq; rw [nopIgnored_toNat]; omega
  rw [decode_eq_nop (cwCmd_eq_zero_iff.2 (by omega)) (cwReserved_eq_zero_iff.2 (by omega)), hign]

theorem decode_encode_encode (l : Law) (f : Fmt) (ign : BitVec 9) :
    decode (encode (.encode l f ign)) = .ok (.encode l f ign) := by
  have := ign.isLt; have := f.code.isLt; have := l.code.isLt
  have h := encode_encode_toNat l f ign
  have hcmd : cwCmd (encode (.encode l f ign)) = 1#2 := by
    apply BitVec.eq_of_toNat_eq; rw [cwCmd_toNat, h, BitVec.toNat_ofNat]; omega
  have hlaw : cwLaw (encode (.encode l f ign)) = l.code := by
    apply BitVec.eq_of_toNat_eq; rw [cwLaw_toNat]; omega
  have hfmt : cwFmt (encode (.encode l f ign)) = f.code := by
    apply BitVec.eq_of_toNat_eq; rw [cwFmt_toNat]; omega
  have hign : (encode (.encode l f ign)).extractLsb' 9 9 = ign := by
    apply BitVec.eq_of_toNat_eq; rw [encodeIgnored_toNat]; omega
  rw [decode_eq_encode (Laws.CommandBits.encode l f ign).1 hcmd (hfmt ▸ fmtOfCode_code f), hlaw, hign, lawOfCode_code]

theorem decode_encode_resample (f : Fmt) (r t : Rate) (ip : Bool) (ign : BitVec 1) :
    decode (encode (.resample f r t ip ign)) = .ok (.resample f r t ip ign) := by
  obtain ⟨hres, hcmd⟩ :=
    Laws.CommandBits.commandWord_bits (if ip then 1#1 else 0#1) t.code r.code f.code ign 2#2
  obtain ⟨hlaw, hfmt, hrate, htarget, hip⟩ :=
    commandWord_fields (if ip then 1#1 else 0#1) t.code r.code f.code ign 2#2
  rw [encode, decode_eq_resample hres hcmd (hfmt ▸ fmtOfCode_code f) (hrate ▸ rateOfCode_code r)
    (htarget ▸ rateOfCode_code t), hlaw, hip]
  cases ip <;> rfl

/-- Settles O8: the commands by their three equations; nothing else is well formed. -/
theorem decodeOfEncodeIsTheCommand : Obligations.DecodeOfEncodeIsTheCommand := by
  intro i hi
  rw [wellFormed_iff_cls] at hi
  induction i using Instr.byUnit with
  | nop ign => exact decode_encode_nop ign
  | encode l f ign => exact decode_encode_encode l f ign
  | resample f r t ip ign => exact decode_encode_resample f r t ip ign
  | dec | cmp | lpf => simp at hi
  | decim => cases hi

/-- Settles O9: the word is rebuilt from the fields the decoder read (`decode_ok_cases`), the ignored ones included. -/
theorem encodeOfDecodeIsTheWord : Obligations.EncodeOfDecodeIsTheWord := by
  intro w i h
  obtain ⟨hres, ⟨hcmd, rfl⟩ | ⟨f, hcmd, hf, rfl⟩ | ⟨f, r, t, hcmd, hf, hr, ht, rfl⟩⟩ := decode_ok_cases h <;>
    refine ⟨?_, rfl⟩
  · have := cwCmd_eq_zero_iff.1 hcmd
    have := cwReserved_eq_zero_iff.1 hres
    apply BitVec.eq_of_toNat_eq
    rw [encode_nop_toNat, nopIgnored_toNat]
    omega
  · have hone : (cwCmd w).toNat = 1 := by rw [hcmd]; rfl
    rw [cwCmd_toNat] at hone
    have := cwReserved_eq_zero_iff.1 hres
    apply BitVec.eq_of_toNat_eq
    rw [encode_encode_toNat, code_lawOfCode, code_of_fmtOfCode hf, cwLaw_toNat, cwFmt_toNat, encodeIgnored_toNat]
    omega
  · have hip : (if (cwInplace w == 1#1) = true then 1#1 else 0#1) = cwInplace w := by
      generalize cwInplace w = b
      revert b
      decide
    rw [encode, hip, code_of_fmtOfCode hf, code_of_rateOfCode hr, code_of_rateOfCode ht, ← hcmd]
    exact commandWord_of_fields hres

/-! ## The reserved words (R90) -/

/-- A word decodes exactly when its reserved field is 0 and its command has the codes it reads. -/
theorem decode_ok_iff (w : Word) : (∃ i, decode w = .ok i) ↔ cwReserved w = 0#14 ∧ (cwCmd w = 0#2 ∨
    (cwCmd w = 1#2 ∧ fmtOfCode (cwFmt w) ≠ none) ∨ (cwCmd w = 2#2 ∧ fmtOfCode (cwFmt w) ≠ none ∧
      rateOfCode (cwRate w) ≠ none ∧ rateOfCode (cwTarget w) ≠ none)) := by
  simp only [Option.ne_none_iff_exists']
  constructor
  · rintro ⟨i, h⟩
    obtain ⟨hres, ⟨hcmd, -⟩ | ⟨f, hcmd, hf, -⟩ | ⟨f, r, t, hcmd, hf, hr, ht, -⟩⟩ := decode_ok_cases h
    · exact ⟨hres, .inl hcmd⟩
    · exact ⟨hres, .inr (.inl ⟨hcmd, f, hf⟩)⟩
    · exact ⟨hres, .inr (.inr ⟨hcmd, ⟨f, hf⟩, ⟨r, hr⟩, t, ht⟩)⟩
  · rintro ⟨hres, hcmd | ⟨hcmd, f, hf⟩ | ⟨hcmd, ⟨f, hf⟩, ⟨r, hr⟩, t, ht⟩⟩
    · exact ⟨_, decode_eq_nop hcmd hres⟩
    · exact ⟨_, decode_eq_encode hres hcmd hf⟩
    · exact ⟨_, decode_eq_resample hres hcmd hf hr ht⟩

theorem decode_error_iff (w : Word) : (∃ e, decode w = .error e) ↔ ¬ ∃ i, decode w = .ok i := by
  cases decode w <;> simp

/-- Settles O10: the four conditions are the negation of `decode_ok_iff`, in numbers. -/
theorem reservedWordsAreExactlyRefused : Obligations.ReservedWordsAreExactlyRefused := by
  refine ⟨fun v => ?conditions, fun s v rest e h hdec => ?refused⟩
  case conditions =>
    have hres : v.toNat / 2 ^ 18 ≠ 0 ↔ ¬ cwReserved v = 0#14 := by rw [cwReserved_eq_zero_iff]; omega
    rw [decode_error_iff, decode_ok_iff, hres, ← cwFmt_toNat, ← cwRate_toNat, ← cwTarget_toNat, ← cwCmd_toNat,
      ← fmtOfCode_eq_none_iff, ← rateOfCode_eq_none_iff, ← rateOfCode_eq_none_iff]
    obtain hcmd | hcmd | hcmd | hcmd := command_cases v <;> simp [hcmd] <;> tauto
  case refused =>
    simp [step_of_writeReg h, launch, hdec]

/-! ## The fields a command ignores (R81, R91) -/

/-- The instruction with the fields its command ignores set to 0. -/
def withoutIgnored : Instr → Instr
  | .nop _ => .nop 0#16
  | .encode l f _ => .encode l f 0#9
  | .resample f r t ip _ => .resample f r t ip 0#1
  | i => i

theorem exec_withoutIgnored (i : Instr) (s : State) : exec (withoutIgnored i) s = exec i s := by
  cases i <;> rfl

/-- Words that agree on the fields their command reads decode alike but for the fields it ignores. -/
theorem decode_map_withoutIgnored {v w : Word} (hv : cwReserved v = 0#14) (hw : cwReserved w = 0#14)
    (hcmd : cwCmd v = cwCmd w) (hencode : cwCmd v = 1#2 → cwLaw v = cwLaw w ∧ cwFmt v = cwFmt w)
    (hresample : cwCmd v = 2#2 → cwFmt v = cwFmt w ∧ cwRate v = cwRate w ∧ cwTarget v = cwTarget w ∧
      cwInplace v = cwInplace w) :
    (decode v).map withoutIgnored = (decode w).map withoutIgnored := by
  obtain h | h | h | h := command_cases v
  · rw [decode_eq_nop h hv, decode_eq_nop (hcmd ▸ h) hw]
    rfl
  · obtain ⟨hlaw, hfmt⟩ := hencode h
    simp only [decode, hv, hw, ← hcmd, h, hlaw, hfmt]
    cases fmtOfCode (cwFmt w) <;> rfl
  · obtain ⟨hfmt, hrate, htarget, hip⟩ := hresample h
    simp only [decode, hv, hw, ← hcmd, h, hfmt, hrate, htarget, hip]
    cases fmtOfCode (cwFmt w) <;> cases rateOfCode (cwRate w) <;> cases rateOfCode (cwTarget w) <;> rfl
  · simp only [decode, hv, hw, ← hcmd, h]
    rfl

/-- `RESAMPLE` takes the word in `CW` along. -/
theorem resampleWith_withCw (A : LpfArith) (C : FiltRate → Coef) (f : Fmt) (r t : Rate) (ip : Bool) (s : State) (v : Word) :
    resampleWith A C f r t ip { s with cw := v } =
      if !(s.start A).lengthsTrue then .fault .bufferLengthUntrue
      else if !ip && s.outLen != s.inLen then .fault .resampleSizeMismatch
      else .next { (((((s.start A).fetchWindows f.bw).runLpf A C r f).runDecim r t).storeKept f
        (resampleDst ip)).finish with cw := v } := by
  cases r <;> cases ip <;> rfl

theorem resampleWith_sameButCw (A : LpfArith) (C : FiltRate → Coef) (f : Fmt) (r t : Rate) (ip : Bool) (s : State)
    (v w : Word) :
    sameButCw (resampleWith A C f r t ip { s with cw := v }) (resampleWith A C f r t ip { s with cw := w }) := by
  rw [resampleWith_withCw, resampleWith_withCw]
  split
  · rfl
  · split
    · rfl
    · rfl

/-- No instruction reads or writes `CW`. -/
theorem exec_sameButCw (i : Instr) (s : State) (v w : Word) :
    sameButCw (exec i { s with cw := v }) (exec i { s with cw := w }) := by
  induction i using Instr.byUnit with
  | nop ign => rfl
  | encode l f ign => exact execEncode_sameButCw l f s v w
  | resample f r t ip ign => exact resampleWith_sameButCw _ _ f r t ip s v w
  | dec f => rw [exec_dec, exec_dec]; rfl
  | cmp l => rw [exec_cmp, exec_cmp]; rfl
  | lpf r f => rw [exec_lpf, exec_lpf]; cases r <;> rfl
  | decim r t => rfl

/-- Settles O11: the two words decode to one instruction but for the fields it ignores, and no meaning reads those. -/
theorem ignoredFieldsDoNotMatter : Obligations.IgnoredFieldsDoNotMatter := by
  intro v w s hv hw hcmd hencode hresample
  have h := decode_map_withoutIgnored hv hw hcmd hencode hresample
  rw [launch, launch]
  cases hdv : decode v with
  | error e =>
    cases hdw : decode w with
    | error e' => simpa [hdv, hdw, Except.map, sameButCw] using h
    | ok j => simp [hdv, hdw, Except.map] at h
  | ok i =>
    cases hdw : decode w with
    | error e' => simp [hdv, hdw, Except.map] at h
    | ok j =>
      have hij : withoutIgnored i = withoutIgnored j := by simpa [hdv, hdw, Except.map] using h
      simp only []
      rw [← exec_withoutIgnored i, hij, exec_withoutIgnored]
      exact exec_sameButCw j s v w

/-! ## The words of the micro-operations (R81 to R86) -/

theorem encode_dec (f : Fmt) : encode f.dec = encode (.encode .mulaw f 0#9) := by cases f <;> decide

theorem encode_cmp (l : Law) : encode l.cmp = encode (.encode l .s8 0#9) := by cases l <;> decide

theorem encode_lpf (r : Rate) (f : Fmt) : encode (r.lpf f) = encode (.resample f r .r8000 false 0#1) := by
  rcases r with _ | q
  · rfl
  · cases q <;> rfl

theorem encode_decim (r t : Rate) : encode (.decim r t) = encode (.resample .s8 r t false 0#1) := rfl

/-- The word of a command selects the micro-operations of the command. -/
theorem selectedMicroOps_encode {i : Instr} (hi : i.wellFormed = true) : selectedMicroOps (encode i) = i.microOps := by
  rw [selectedMicroOps, decodeOfEncodeIsTheCommand i hi]

/-- Settles O12: the word of a micro-operation is that of a command which selects it. -/
theorem everyMicroOperationIsSelectedByItsWord : Obligations.EveryMicroOperationIsSelectedByItsWord := by
  refine ⟨fun i hi => ?selected, fun i => ?commands⟩
  case selected =>
    have hcls : i.cls ≠ .command := fun h => by simp [(wellFormed_iff_cls i).2 h] at hi
    clear hi
    induction i using Instr.byUnit with
    | nop | encode | resample => exact absurd rfl hcls
    | dec f => rw [encode_dec, selectedMicroOps_encode rfl]; exact List.mem_cons_self
    | cmp l => rw [encode_cmp, selectedMicroOps_encode rfl]; simp [Instr.microOps]
    | lpf r f => rw [encode_lpf, selectedMicroOps_encode rfl]; exact List.mem_cons_self
    | decim r t => rw [encode_decim, selectedMicroOps_encode rfl]; simp [Instr.microOps]
  case commands =>
    rw [wellFormed_iff_cls]
    constructor
    · cases i <;> simp [Instr.cls]
    · rintro (⟨ign, rfl⟩ | ⟨l, f, ign, rfl⟩ | ⟨f, r, t, ip, ign, rfl⟩) <;> rfl

end Sys2Proof.Machine
end

section
/-! PROOF. The family 43_iir_lp_decimator.md, `RESAMPLE` as a whole: the state it ends in (`State.resampled`), when it ends
there (`exec_resample_next_iff`), and what that state holds; the boundary of the filters (R195). -/

namespace Sys2Proof.Machine

/-! ## The boundary of the filters (R195) -/

/-- The values of the recurrence depend on the number of windows before position 3 and on the windows from there on. -/
theorem filterValue_congr (A : LpfArith) (c : Coef) (f : Fmt) {xw xw' : List Window} (h : xw.drop 3 = xw'.drop 3)
    (m : Nat) : filterValue A c f xw m = filterValue A c f xw' m := by
  induction m using Nat.strong_induction_on with
  | _ m ih =>
    rcases Nat.lt_or_ge m 3 with hlt | hge
    · rw [filterValue_of_lt A c f xw hlt, filterValue_of_lt A c f xw' hlt]
    · have hwin : xw.getD m [] = xw'.getD m [] := by
        obtain ⟨n, rfl⟩ := Nat.exists_eq_add_of_le hge
        simpa using congrArg (fun ws => ws.getD n []) h
      rw [filterValue_of_le A c f xw hge, filterValue_of_le A c f xw' hge, ih _ (by omega), ih _ (by omega), hwin]

/-- Settles O32: below position 3 the filter writes zero bytes (`runLpf_filt`), and no value of its recurrence reads a
window before position 3 (`filterValue_congr`). -/
theorem filterBoundaryIsZero : Obligations.FilterBoundaryIsZero := by
  intro q f s s' hlen hdrop
  refine ⟨_, _, exec_lpf (.filt q) f s, exec_lpf (.filt q) f s', fun m hm hN => ?_, ?_, ?_, ?_⟩
  · rw [runLpf_filt, List.getElem?_map, List.getElem?_range hN, Option.map_some, if_pos hm]
  all_goals simp only [runLpf_filt, hlen, valueBefore, filterValue_congr _ _ f hdrop]

/-! ## Where RESAMPLE ends (R209) -/

theorem lengthsTrue_iff {s : State} : s.lengthsTrue = true ↔ s.inLen ≤ s.input.size ∧ s.outLen ≤ s.output.size := by
  simp [State.lengthsTrue]

/-- The state `RESAMPLE` ends in: the kept windows stored, `STATUS` 0x01. -/
def State.resampled (s : State) (f : Fmt) (r t : Rate) (ip : Bool) : State :=
  ((s.decimated f r t).storeKept f (resampleDst ip)).finish

theorem exec_resample_of_untrue {s : State} (h : s.lengthsTrue = false) {f : Fmt} {r t : Rate} {ip : Bool}
    {ign : BitVec 1} : exec (.resample f r t ip ign) s = .fault .bufferLengthUntrue := by
  simp [exec_resample, resampleWith, h]

theorem exec_resample_next_iff {s u : State} {f : Fmt} {r t : Rate} {ip : Bool} {ign : BitVec 1} :
    exec (.resample f r t ip ign) s = .next u ↔ s.resampleReady ip ∧ u = s.resampled f r t ip := by
  constructor
  · intro h
    have hready : s.resampleReady ip := by
      cases htrue : s.lengthsTrue with
      | false => rw [exec_resample_of_untrue htrue] at h; cases h
      | true =>
        refine ⟨htrue, fun hip => by_contra fun hne => ?_⟩
        rw [hip, resampleOfUnequalSizesFaults f r t ign s htrue hne] at h
        cases h
    rw [exec_resample_of_ready hready] at h
    exact ⟨hready, by injection h with h; exact h.symm⟩
  · rintro ⟨hready, rfl⟩
    exact exec_resample_of_ready hready f r t ign

section Resampled
variable (s : State) (f : Fmt) (r t : Rate) (ip : Bool)

@[simp] theorem resampled_status : (s.resampled f r t ip).status = 0x01#32 := by simp [State.resampled]

@[simp] theorem resampled_draws : (s.resampled f r t ip).draws = s.draws + 1 := by
  simp [State.resampled, State.decimated]

/-- `COUNT` is the number of bytes kept (R217). -/
theorem resampled_count : (s.resampled f r t ip).count = BitVec.ofNat 32 ((s.decimated f r t).ow.length * f.bw) := by
  simp [State.resampled]

theorem resampled_count_toNat : (s.resampled f r t ip).count.toNat = (s.decimated f r t).ow.length * f.bw := by
  rw [resampled_count, BitVec.toNat_ofNat, Nat.mod_eq_of_lt]
  rw [decimated_ow_length]
  exact keptCount_mul_lt s f r t

theorem decimated_ow_length_le : (s.decimated f r t).ow.length ≤ (s.decimated f r t).windowCount f.bw := by
  rw [decimated_ow_length, decimated_windowCount]
  exact keptCount_le

/-- Byte `a` of the kept windows in the destination, counted from their front (R214). -/
theorem resampled_readByte_front {a : Nat} (ha : a < (s.decimated f r t).ow.length * f.bw) :
    (s.resampled f r t ip).readByte (resampleDst ip) a =
      ((s.decimated f r t).ow.getD (a / f.bw) []).getD (a % f.bw) 0#8 := by
  have hk : a / f.bw < (s.decimated f r t).ow.length := Nat.div_lt_of_lt_mul (by rwa [Nat.mul_comm])
  have hi : a % f.bw < f.bw := Nat.mod_lt _ (Fmt.bw_pos f)
  have h := (storeKept_readByte _ f (resampleDst ip) (decimated_ow_width s f r t) (decimated_ow_length_le s f r t)).1
    _ _ hk hi
  rw [Nat.div_add_mod'] at h
  rw [State.resampled, finish_readByte, h, List.getD_eq_getElem _ _ hk]

/-- The other buffer, and the destination beyond its `N` windows, read as before (R215). -/
theorem resampled_readByte_rest {sp : Space} {a : Nat}
    (h : sp ≠ resampleDst ip ∨ s.windowCount f.bw * f.bw ≤ a) :
    (s.resampled f r t ip).readByte sp a = s.readByte sp a := by
  rw [State.resampled, finish_readByte, (storeKept_readByte _ f (resampleDst ip) (decimated_ow_width s f r t)
    (decimated_ow_length_le s f r t)).2 sp a (by rwa [decimated_windowCount]), decimated_readByte]

theorem keepsHostSide_resampled : keepsHostSide s (s.resampled f r t ip) := keepsHostSide_resample s f r t _

/-- `RESAMPLE` takes the value in `OUT_LEN` along: only its check reads it. -/
theorem resampled_withOutLen (n : Word) :
    ({ s with outLen := n } : State).resampled f r t ip = { s.resampled f r t ip with outLen := n } := by
  cases r <;> cases ip <;> rfl

end Resampled

/-! ## The kept windows depend on the windows of IN -/

theorem inputWindows_congr {s s' : State} {f : Fmt} (hlen : s'.inLen = s.inLen)
    (h : ∀ a < s.inLen.toNat / f.bw * f.bw, s'.readByte .input a = s.readByte .input a) :
    s'.inputWindows f = s.inputWindows f := by
  have hN : s'.windowCount f.bw = s.windowCount f.bw := by rw [State.windowCount, hlen, State.windowCount]
  rw [State.inputWindows, hN]
  refine List.map_congr_left fun m hm => readBytes_congr fun i hi => h _ ?_
  have := window_inside (bw := f.bw) (List.mem_range.1 hm)
  rw [State.windowCount] at this
  omega

theorem decimated_ow_congr {s s' : State} {f : Fmt} (h : s'.inputWindows f = s.inputWindows f) (r t : Rate) :
    (s'.decimated f r t).ow = (s.decimated f r t).ow := by
  rw [decimated_ow, decimated_ow]
  exact congrArg (keepEvery (stride r t)) (runLpf_yw_congr _ _ h r f)

/-- Where the kept windows agree, so do `COUNT` and the bytes it counts, whichever the destinations. -/
theorem resampled_congr {s s' : State} {f : Fmt} {r t : Rate}
    (h : (s'.decimated f r t).ow = (s.decimated f r t).ow) (ip ip' : Bool) :
    (s'.resampled f r t ip').count = (s.resampled f r t ip).count ∧ ∀ a < (s.resampled f r t ip).count.toNat,
      (s'.resampled f r t ip').readByte (resampleDst ip') a = (s.resampled f r t ip).readByte (resampleDst ip) a := by
  refine ⟨by rw [resampled_count, resampled_count, h], fun a ha => ?_⟩
  rw [resampled_count_toNat] at ha
  rw [resampled_readByte_front _ _ _ _ _ ha, resampled_readByte_front _ _ _ _ _ (h ▸ ha), h]

/-! ## The copy at 8000 Hz (R198) -/

theorem stride_r8000 (t : Rate) : stride .r8000 t = 1 := by
  rcases t with _ | q
  · rfl
  · cases q <;> rfl

theorem keepEvery_one (ws : List Window) : keepEvery 1 ws = ws := by
  have hcount : keptCount 1 ws.length = ws.length := by rw [keptCount_eq_ceil Nat.one_pos]; simp
  refine List.ext_getElem? fun k => ?_
  rcases Nat.lt_or_ge k ws.length with hk | hk
  · rw [keepEvery_getElem? (hcount.symm ▸ hk), Nat.mul_one]
  · rw [List.getElem?_eq_none hk, List.getElem?_eq_none (by rwa [keepEvery_length, hcount])]

theorem decimated_ow_r8000 (s : State) (f : Fmt) (t : Rate) : (s.decimated f .r8000 t).ow = s.inputWindows f := by
  rw [decimated_ow, stride_r8000, keepEvery_one, runLpf_r8000]

/-- Byte `a` of the windows of `IN`, counted from their front, is `IN[a]`. -/
theorem inputWindows_getD {s : State} {f : Fmt} {a : Nat} (ha : a < s.windowCount f.bw * f.bw) :
    ((s.inputWindows f).getD (a / f.bw) []).getD (a % f.bw) 0#8 = s.readByte .input a := by
  have hk : a / f.bw < s.windowCount f.bw := Nat.div_lt_of_lt_mul (by rwa [Nat.mul_comm])
  have hi : a % f.bw < f.bw := Nat.mod_lt _ (Fmt.bw_pos f)
  have hwin : (s.inputWindows f).getD (a / f.bw) [] = s.readBytes .input (a / f.bw * f.bw) f.bw := by
    simp [State.inputWindows, hk]
  rw [hwin, List.getD_eq_getElem?_getD, readBytes_getElem? _ _ _ _ _ hi, Option.getD_some, Nat.div_add_mod']

/-- Settles O37: at 8000 Hz the kept windows are the windows of `IN`. -/
theorem resampleAtEightThousandCopies : Obligations.ResampleAtEightThousandCopies := by
  intro f t ip ign s hready
  have hbytes : (s.decimated f .r8000 t).ow.length * f.bw = s.windowCount f.bw * f.bw := by
    rw [decimated_ow_r8000, inputWindows_length]
  refine ⟨_, exec_resample_next_iff.2 ⟨hready, rfl⟩, resampled_status .., ?_, fun a ha => ?_, resampled_draws ..⟩
  · rw [resampled_count_toNat, hbytes, State.windowCount]
  · rw [resampled_readByte_front _ _ _ _ _ (hbytes ▸ ha), decimated_ow_r8000, inputWindows_getD ha]

/-- Settles O38: the kept windows do not depend on the destination (`resampled_congr`), `OUT` is not the destination, and
only the check of an output as large as the input reads `OUT_LEN`. -/
theorem resampleInPlaceAgrees : Obligations.ResampleInPlaceAgrees := by
  refine ⟨fun f r t ign ign' s hready => ?_, fun f r t ign s n hready hn => ?_⟩
  · have hready' : s.resampleReady true := ⟨hready.1, nofun⟩
    obtain ⟨hcount, hbytes⟩ := resampled_congr (rfl : (s.decimated f r t).ow = _) false true
    exact ⟨_, _, exec_resample_next_iff.2 ⟨hready, rfl⟩, exec_resample_next_iff.2 ⟨hready', rfl⟩, hcount, hbytes,
      fun a => resampled_readByte_rest s f r t true (.inl (by decide))⟩
  · have hready' : ({ s with outLen := n } : State).resampleReady true :=
      ⟨lengthsTrue_iff.2 ⟨(lengthsTrue_iff.1 hready.1).1, hn⟩, nofun⟩
    exact ⟨_, _, exec_resample_next_iff.2 ⟨hready, rfl⟩, exec_resample_next_iff.2 ⟨hready', rfl⟩,
      resampled_withOutLen s f r t true n⟩

/-- Settles O49: the kept windows depend on the windows of `IN` only (`decimated_ow_congr`). -/
theorem resampleDependsOnItsWindowsOnly : Obligations.ResampleDependsOnItsWindowsOnly := by
  intro f r u ip ign ign' s s' t hin hout htrue hbytes h
  obtain ⟨⟨-, hsize⟩, rfl⟩ := exec_resample_next_iff.1 h
  have hready : s'.resampleReady ip := ⟨htrue, fun hip => by rw [hout, hin, hsize hip]⟩
  obtain ⟨hcount, hfront⟩ := resampled_congr (decimated_ow_congr (inputWindows_congr hin hbytes) r u) ip ip
  exact ⟨_, exec_resample_next_iff.2 ⟨hready, rfl⟩, by simp, hcount, hfront⟩

/-! ## The start of a filtered unsigned signal (R300) -/

/-- The lowest pattern of an unsigned format is full scale, not silence. -/
theorem decodeSample_zeros {f : Fmt} (hf : f.kind = .unsigned) :
    (decodeSample f (List.replicate f.bw 0#8)).toInt = -32768 := by
  cases f
  case u8 | u16be | u16le | u24be | u24le | u32be | u32le => decide
  all_goals cases hf

/-- Settles O41: window 0 is kept, and below position 3 the filter writes zero bytes (R195). -/
theorem filteredUnsignedStartsAtFullScale : Obligations.FilteredUnsignedStartsAtFullScale := by
  intro f q t ip ign s hf hready hin
  obtain ⟨u, v, hexec, hlpf, -, -, hkept, -⟩ := resampleStoresTheKeptWindows f (.filt q) t ip ign s hready
  have hN : 0 < s.inLen.toNat / f.bw := Nat.div_pos hin (Fmt.bw_pos f)
  have hwindow : v.yw.getD 0 [] = List.replicate f.bw 0#8 := by
    rw [exec_lpf] at hlpf
    cases hlpf
    have hpos : 0 < s.windowCount f.bw := hN
    simp [runLpf_filt, hpos]
  have hfirst := hkept 0 (Nat.div_pos (by omega) (by omega))
  rw [Nat.zero_mul, Nat.zero_mul, hwindow] at hfirst
  exact ⟨u, hexec, by rw [hfirst]; exact decodeSample_zeros hf⟩

end Sys2Proof.Machine
end

section
/-! PROOF. The family 44_encode_sequencer.md, `ENCODE` as a whole: how it ends (`exec_encode_next_cases`), that what it
reports and stores depends on the codes of its windows only (`exec_encode_congr`), and that both commands run their
micro-operations (R230, R209). -/

namespace Sys2Proof.Machine

/-- How `ENCODE` ends where it does: with the error, or having walked over its windows. -/
theorem exec_encode_next_cases {l : Law} {f : Fmt} {ign : BitVec 9} {s t : State}
    (h : exec (.encode l f ign) s = .next t) :
    (s.outLen.toNat < s.inLen.toNat / 2 ∧ t = (s.start Config.lpfArith).raiseOutputBufferTooSmall) ∨ s.encodeReady f := by
  cases htrue : s.lengthsTrue with
  | false => cases h.symm.trans (exec_encode_of_untrue l f ign htrue)
  | true =>
    rcases Nat.lt_or_ge s.outLen.toNat (s.inLen.toNat / 2) with hsmall | hcheck
    · cases h.symm.trans (exec_encode_of_tooSmall l f ign htrue hsmall)
      exact .inl ⟨hsmall, rfl⟩
    · rcases Nat.lt_or_ge s.outLen.toNat (s.windowCount f.bw) with hover | hroom
      · cases h.symm.trans (exec_encode_of_noRoom l f ign htrue hcheck hover)
      · exact .inr (encodeReady_iff.2 ⟨htrue, hcheck, hroom⟩)

/-! ## What ENCODE depends on (R52, R244) -/

/-- Two launches of `ENCODE` whose lengths, widths and codes of the windows agree report and store the same. -/
theorem exec_encode_congr {l : Law} {f f' : Fmt} {ign ign' : BitVec 9} {s s' t : State} (hbw : f'.bw = f.bw)
    (hin : s'.inLen = s.inLen) (hout : s'.outLen = s.outLen) (htrue : s'.lengthsTrue = true)
    (hcodes : ∀ k < s.inLen.toNat / f.bw, s'.codeOfWindow l f' k = s.codeOfWindow l f k)
    (h : exec (.encode l f ign) s = .next t) :
    ∃ t', exec (.encode l f' ign') s' = .next t' ∧ t'.status = t.status ∧ t'.count = t.count ∧
      ∀ a < t.count.toNat, t'.readByte .output a = t.readByte .output a := by
  rcases exec_encode_next_cases h with ⟨hsmall, rfl⟩ | hready
  · refine ⟨_, exec_encode_of_tooSmall l f' ign' htrue (by rwa [hin, hout]), by simp, by simp, fun a ha => ?_⟩
    simp at ha
  · have hready' : s'.encodeReady f' := by
      obtain ⟨-, hcheck, hone⟩ := hready
      exact ⟨htrue, by rwa [hin, hout], by rwa [hin, hout, hbw]⟩
    obtain ⟨u, hnext, hstatus, hcount, -, hstored, -⟩ := encodeStoresOneByteAWindow l f ign s hready
    obtain ⟨t', hnext', hstatus', hcount', -, hstored', -⟩ := encodeStoresOneByteAWindow l f' ign' s' hready'
    cases h.symm.trans hnext
    rw [hin, hbw] at hcount' hstored'
    refine ⟨t', hnext', hstatus'.trans hstatus.symm, BitVec.eq_of_toNat_eq (hcount'.trans hcount.symm), fun a ha => ?_⟩
    rw [hcount] at ha
    calc t'.readByte .output a
        = s'.codeOfWindow l f' a := by rw [hstored' a ha, State.codeOfWindow, hbw]
      _ = s.codeOfWindow l f a := hcodes a ha
      _ = t.readByte .output a := (hstored a ha).symm

/-- Settles O48: the codes of the windows depend on the bytes of the windows only. -/
theorem encodeDependsOnItsWindowsOnly : Obligations.EncodeDependsOnItsWindowsOnly := by
  intro l f ign ign' s s' t hin hout htrue hbytes h
  refine exec_encode_congr rfl hin hout htrue (fun k hk => ?_) h
  have hwindow := window_inside (bw := f.bw) hk
  rw [State.codeOfWindow, State.codeOfWindow, readBytes_congr (t := s) fun i hi => hbytes _ (by omega)]

/-- Settles O47: a decoder of a pair makes of the reversed window the sample the other makes of the window. -/
theorem byteOrderDoesNotChangeTheOutput : Obligations.ByteOrderDoesNotChangeTheOutput := by
  intro p hp
  have hpair : p.2.bw = p.1.bw ∧ ∀ w, decodeSample p.2 w.reverse = decodeSample p.1 w := by
    fin_cases hp <;> exact ⟨rfl, fun w => rfl⟩
  intro l ign ign' s s' hready htrue hin hout hwindows
  obtain ⟨t, h, -⟩ := encodeStoresOneByteAWindow l p.1 ign s hready
  obtain ⟨t', h', hsame⟩ := exec_encode_congr (ign' := ign') hpair.1 hin hout htrue
    (fun k hk => by rw [State.codeOfWindow, State.codeOfWindow, hwindows k hk, hpair.2]) h
  exact ⟨t, t', h, h', hsame⟩

/-- Settles O52: the error leaves what the start left but for `STATUS`, and the next start clears all of that again. -/
theorem retryAfterTheErrorOwesNothing : Obligations.RetryAfterTheErrorOwesNothing := by
  intro l f ign s t n h herr
  rcases exec_encode_next_cases h with ⟨-, rfl⟩ | hready
  · rfl
  · obtain ⟨u, hnext, hstatus, -⟩ := encodeStoresOneByteAWindow l f ign s hready
    cases h.symm.trans hnext
    rw [hstatus] at herr
    exact absurd herr (by decide)

/-- Settles O50: the start of either command clears all of these registers before anything reads them. -/
theorem commandsForgetEarlierResults : Obligations.CommandsForgetEarlierResults := by
  intro s status count pos win sample code y1 y2 xw yw ow s'
  exact ⟨fun l f ign => rfl, fun f r t ip ign => rfl⟩

/-! ## The commands run their micro-operations (R230, R209) -/

/-- One turn of the walk stores where there is room, else faults (R235, R237). -/
theorem encodeWalk_succ (l : Law) (f : Fmt) (n : Nat) (s : State) :
    (¬ (s.encodeWindow l f).outLen ≤ (s.encodeWindow l f).count →
      encodeWalk l f (n + 1) s = encodeWalk l f n ((s.encodeWindow l f).storeCode f.bw)) ∧
    ((s.encodeWindow l f).outLen ≤ (s.encodeWindow l f).count → encodeWalk l f (n + 1) s =
      .fault (.outputOverrun ((s.encodeWindow l f).readBytes .output 0 (s.encodeWindow l f).count.toNat))) :=
  ⟨fun h => if_neg h, fun h => if_pos h⟩

/-- Settles O13: `exec` of a micro-operation completes with what its stage leaves (`exec_dec`, `exec_cmp`, `exec_lpf`,
`exec_decim`), and the commands are built of these stages. -/
theorem commandsRunTheirMicroOperations : Obligations.CommandsRunTheirMicroOperations := by
  refine ⟨fun l f ign => rfl, fun f r t ip ign => rfl,
    fun l f ign s htrue hcheck => exec_encode_of_check l f ign htrue hcheck,
    fun l f n s => ?turn, fun l f s => rfl, fun f r t ip ign s hready => ?resample⟩
  case turn =>
    obtain ⟨hstore, hfault⟩ := encodeWalk_succ l f n s
    exact ⟨_, s.encodeWindow l f, exec_dec f _, exec_cmp l _, fun hroom => hstore (BitVec.not_le.2 hroom), hfault⟩
  case resample =>
    exact ⟨_, s.decimated f r t, exec_lpf r f _, exec_decim r t _, exec_resample_of_ready hready f r t ign⟩

end Sys2Proof.Machine
end

section
/-! PROOF. The host's access to the buffers (R92, R93, R243): when each action completes and with what, and the action beyond
a buffer; the obligations on the host's steps are assembled from these. -/

namespace Sys2Proof.Machine

/-! ## What each action does -/

section Actions
variable {s t : State} {sp : Space} {a : Nat} {b : Byte} {bytes : List Byte}

theorem hostStore_next_iff : hostStore sp bytes s = .next t ↔
    bytes.length ≤ (s.buffer sp).size.toNat ∧ t = s.writeBytes sp 0 bytes := by
  unfold hostStore
  split <;> simp_all [eq_comm]

theorem hostStoreByte_next_iff : hostStoreByte sp a b s = .next t ↔
    a < (s.buffer sp).size.toNat ∧ t = s.writeByte sp a b := by
  unfold hostStoreByte
  split <;> simp_all [eq_comm]

theorem hostLoadByte_next_iff : hostLoadByte sp a s = .next t ↔
    a < (s.buffer sp).size.toNat ∧ t = { s with hostData := (s.readByte sp a).setWidth 32 } := by
  unfold hostLoadByte
  split <;> simp_all [eq_comm]

/-- `COPYBACK` is a store to `IN` of the bytes `COUNT` counts (R93). -/
theorem hostCopyBack_next_iff : hostCopyBack s = .next t ↔
    s.count ≤ s.output.size ∧ hostStoreIn (s.readBytes .output 0 s.count.toNat) s = .next t := by
  unfold hostCopyBack
  split <;> simp_all

theorem hostStore_beyond (h : (s.buffer sp).size.toNat < bytes.length) :
    hostStore sp bytes s = .fault .hostBeyondBuffer := if_neg (Nat.not_le.2 h)

theorem hostStoreByte_beyond (h : (s.buffer sp).size.toNat ≤ a) :
    hostStoreByte sp a b s = .fault .hostBeyondBuffer := if_neg (Nat.not_lt.2 h)

theorem hostLoadByte_beyond (h : (s.buffer sp).size.toNat ≤ a) :
    hostLoadByte sp a s = .fault .hostBeyondBuffer := if_neg (Nat.not_lt.2 h)

/-- `COPYBACK` stops where either buffer is smaller than `COUNT`. -/
theorem hostCopyBack_beyond (h : s.output.size < s.count ∨ s.input.size < s.count) :
    hostCopyBack s = .fault .hostBeyondBuffer := by
  unfold hostCopyBack
  split
  next hout =>
    have hin : s.input.size < s.count := h.resolve_left (BitVec.not_lt.2 hout)
    exact hostStore_beyond (sp := .input) (by rw [readBytes_length]; exact hin)
  next => rfl

end Actions

/-! ## The bytes after an action -/

theorem readByte_congr {s t : State} {sp : Space} (h : t.buffer sp = s.buffer sp) (a : Nat) :
    t.readByte sp a = s.readByte sp a := by
  rw [State.readByte, h, State.readByte]

section Queue
variable (s : State) (rest : List HostAction) (sp : Space)

/-- Taking an action from the queue leaves the buffers alone. -/
@[simp] theorem withPending_buffer : ({ s with pending := rest } : State).buffer sp = s.buffer sp := by cases sp <;> rfl

@[simp] theorem withPending_readByte (a : Nat) :
    ({ s with pending := rest } : State).readByte sp a = s.readByte sp a :=
  readByte_congr (withPending_buffer s rest sp) a

end Queue

/-- A newly supplied buffer keeps the bytes below its size and holds nothing else. -/
theorem readByte_supply (s : State) (sp : Space) (size : Word) (a : Nat) :
    (s.setBuffer sp ⟨size, (s.buffer sp).cells.below size.toNat⟩).readByte sp a =
      if a < size.toNat then s.readByte sp a else Config.resetByte sp a := by
  rw [State.readByte, setBuffer_buffer_self, Memory.lookup_below]
  split <;> rfl

theorem readBytes_writeBytes_self (s : State) (sp : Space) (a : Nat) (bs : List Byte) :
    (s.writeBytes sp a bs).readBytes sp a bs.length = bs := by
  refine List.ext_getElem (by simp) fun i _ hi => ?_
  simpa [State.readBytes] using readByte_writeBytes_in s hi

theorem readByte_writeBytes_beyond (s : State) (sp : Space) {bs : List Byte} {a : Nat} (ha : bs.length ≤ a) :
    (s.writeBytes sp 0 bs).readByte sp a = s.readByte sp a :=
  readByte_writeBytes_out s (.inr (.inr (by omega)))

/-- What a host's store to `IN` leaves (R92). -/
theorem hostStoreIn_spec {s : State} {bs : List Byte} (h : bs.length ≤ s.input.size.toNat) :
    ∃ t, hostStoreIn bs s = .next t ∧ t.inLen.toNat = bs.length ∧ t.readBytes .input 0 bs.length = bs ∧
      (∀ a, bs.length ≤ a → t.readByte .input a = s.readByte .input a) ∧
      t = { s with inLen := t.inLen, input := t.input } ∧ t.input.size = s.input.size := by
  refine ⟨_, hostStore_next_iff.2 ⟨h, rfl⟩, ?_, readBytes_writeBytes_self .., fun a ha => ?_, rfl, rfl⟩
  · have := s.input.size.isLt
    simp; omega
  · exact readByte_writeBytes_beyond _ _ ha

/-- Settles O58: `COPYBACK` stores to `IN` the bytes it reads from `OUT`, of which there are `COUNT`. -/
theorem copyBackCopiesTheResult : Obligations.CopyBackCopiesTheResult := by
  intro s rest hp hout hin
  have hlen : (s.readBytes .output 0 s.count.toNat).length = s.count.toNat := readBytes_length ..
  obtain ⟨t, hnext, hinLen, hfront, hrest, hframe, hsize⟩ :=
    hostStoreIn_spec (s := { s with pending := rest }) (hlen.trans_le hin)
  rw [hlen] at hinLen hfront hrest
  refine ⟨t, ?_, BitVec.eq_of_toNat_eq hinLen, fun a ha => ?_, hrest, by rw [hframe], by rw [hframe], hsize⟩
  · rw [step_of_pending hp]
    exact hostCopyBack_next_iff.2 ⟨hout, hnext⟩
  · have hbyte : (t.readBytes .input 0 s.count.toNat)[a]? = (s.readBytes .output 0 s.count.toNat)[a]? := by rw [hfront]
    rw [readBytes_getElem? _ _ _ _ _ ha, readBytes_getElem? _ _ _ _ _ ha, Nat.zero_add] at hbyte
    exact Option.some.inj hbyte

/-- Settles O59: each action of the host by its lemma above. -/
theorem hostStoresBytes : Obligations.HostStoresBytes := by
  refine ⟨fun s rest bs hp hfit => ?storeIn, fun s rest bs hp hfit => ?storeOut, fun s rest sp a b hp hfit => ?storeByte,
    fun s rest sp a hp hfit => ?loadByte, fun s rest sp size hp => ?supply, fun s rest sp a b bs hp => ?beyond⟩
  case storeIn =>
    obtain ⟨t, hnext, hinLen, hfront, hrest, hframe, hsize⟩ := hostStoreIn_spec (s := { s with pending := rest }) hfit
    exact ⟨t, (step_of_pending hp).trans hnext, hinLen, hfront, hrest, hframe, hsize⟩
  case storeOut =>
    exact ⟨_, (step_of_pending hp).trans (hostStore_next_iff.2 ⟨hfit, rfl⟩), readBytes_writeBytes_self ..,
      fun a ha => readByte_writeBytes_beyond _ _ ha, rfl, rfl⟩
  case storeByte =>
    refine ⟨_, (step_of_pending hp).trans (hostStoreByte_next_iff.2 ⟨by rwa [withPending_buffer], rfl⟩),
      readByte_writeByte_self .., fun sp' a' hne => ?_, ?_, ?_, ?_⟩
    · rw [readByte_writeByte_ne _ _ hne, withPending_readByte]
    all_goals cases sp <;> rfl
  case loadByte =>
    refine ⟨_, (step_of_pending hp).trans (hostLoadByte_next_iff.2 ⟨by rwa [withPending_buffer], rfl⟩), ?_, rfl⟩
    simpa using (s.readByte sp a).isLt.trans (by decide)
  case supply =>
    refine ⟨_, step_of_pending hp, by rw [setBuffer_buffer_self], fun a ha => ?_, fun a ha => ?_, fun sp' hne => ?_, ?_⟩
    · rw [readByte_supply, if_pos ha, withPending_readByte]
    · rw [readByte_supply, if_neg (Nat.not_lt.2 ha)]
    · rw [setBuffer_buffer_ne _ _ hne, withPending_buffer]
    · cases sp <;> rfl
  case beyond =>
    rcases hp with ⟨hp, h⟩ | ⟨hp, h⟩ | ⟨hp, h⟩ | ⟨hp, h⟩ | ⟨hp, h⟩ <;> rw [step_of_pending hp]
    · exact hostStoreByte_beyond (by rwa [withPending_buffer])
    · exact hostLoadByte_beyond (by rwa [withPending_buffer])
    · exact hostStore_beyond (sp := .input) h
    · exact hostStore_beyond (sp := .output) h
    · exact hostCopyBack_beyond h

end Sys2Proof.Machine
end

section
/-! PROOF. The rules of the whole machine: what each instruction writes and where it stops (R22, R28, R30, R33, R61, R264), and
the invariant of the state, which every step keeps. The thirty micro-operations are treated once, by
`microOperationsWriteTheirRegisterOnly`; the commands by how they end (`exec_encode_next_cases`,
`exec_resample_next_iff`). -/

namespace Sys2Proof.Machine

/-! ## The micro-operations (R22) -/

/-- Settles O57: each unit by its one equation of `exec`. -/
theorem microOperationsWriteTheirRegisterOnly : Obligations.MicroOperationsWriteTheirRegisterOnly := by
  intro i s t hi h
  induction i using Instr.byUnit with
  | nop | encode | resample => exact absurd rfl hi
  | dec f => cases (exec_dec f s).symm.trans h; simp [keepsHostSide]
  | cmp l => cases (exec_cmp l s).symm.trans h; simp [keepsHostSide]
  | lpf r f => cases (exec_lpf r f s).symm.trans h; simp [keepsHostSide]
  | decim r u => cases (exec_decim r u s).symm.trans h; simp [keepsHostSide, Instr.cls]

/-- The instructions in four groups: the three commands and the micro-operations. -/
theorem Instr.byCommand {P : Instr → Prop} (nop : ∀ ign, P (.nop ign)) (encode : ∀ l f ign, P (.encode l f ign))
    (resample : ∀ f r t ip ign, P (.resample f r t ip ign)) (microOp : ∀ i, i.cls ≠ .command → P i)
    (i : Instr) : P i := by
  cases i
  case nop ign => exact nop ign
  case encode l f ign => exact encode l f ign
  case resample f r t ip ign => exact resample f r t ip ign
  all_goals exact microOp _ nofun

/-! ## Where the instructions stop (R264) -/

theorem exec_encode_completes_iff {l : Law} {f : Fmt} {ign : BitVec 9} {s : State} :
    (∃ t, exec (.encode l f ign) s = .next t) ↔
      s.lengthsTrue = true ∧ (s.outLen.toNat < s.inLen.toNat / 2 ∨ s.encodeReady f) := by
  constructor
  · rintro ⟨t, h⟩
    refine ⟨?_, (exec_encode_next_cases h).imp And.left id⟩
    cases htrue : s.lengthsTrue with
    | false => cases h.symm.trans (exec_encode_of_untrue l f ign htrue)
    | true => rfl
  · rintro ⟨htrue, hsmall | hready⟩
    · exact ⟨_, exec_encode_of_tooSmall l f ign htrue hsmall⟩
    · obtain ⟨t, hnext, -⟩ := encodeStoresOneByteAWindow l f ign s hready
      exact ⟨t, hnext⟩

theorem exec_microOp_completes (i : Instr) (s : State) (hi : i.cls ≠ .command) : ∃ t, exec i s = .next t := by
  induction i using Instr.byUnit with
  | nop | encode | resample => exact absurd rfl hi
  | dec f => exact ⟨_, exec_dec f s⟩
  | cmp l => exact ⟨_, exec_cmp l s⟩
  | lpf r f => exact ⟨_, exec_lpf r f s⟩
  | decim r t => exact ⟨_, exec_decim r t s⟩

/-- `RESAMPLE` completes or faults. -/
theorem exec_resample_cases (f : Fmt) (r t : Rate) (ip : Bool) (ign : BitVec 1) (s : State) :
    exec (.resample f r t ip ign) s = .fault .bufferLengthUntrue ∨
    exec (.resample f r t ip ign) s = .fault .resampleSizeMismatch ∨
    exec (.resample f r t ip ign) s = .next (s.resampled f r t ip) := by
  cases htrue : s.lengthsTrue with
  | false => exact .inl (exec_resample_of_untrue htrue)
  | true =>
    by_cases hsize : ip = false ∧ s.outLen ≠ s.inLen
    · obtain ⟨rfl, hne⟩ := hsize
      exact .inr (.inl (resampleOfUnequalSizesFaults f r t ign s htrue hne))
    · exact .inr (.inr (exec_resample_next_iff.2 ⟨⟨htrue, by tauto⟩, rfl⟩))

theorem exec_ne_refused (i : Instr) (s : State) (why : Refusal) : exec i s ≠ .refused why := by
  intro h
  induction i using Instr.byCommand with
  | nop ign => cases h
  | encode l f ign =>
    rcases exec_encode_cases l f ign s with hfault | hraise | hready | ⟨-, -, hfault⟩
    · cases h.symm.trans hfault
    · cases h.symm.trans hraise
    · obtain ⟨t, hnext, -⟩ := encodeStoresOneByteAWindow l f ign s hready
      cases h.symm.trans hnext
    · cases h.symm.trans hfault
  | resample f r t ip ign =>
    rcases exec_resample_cases f r t ip ign s with h' | h' | h' <;> cases h.symm.trans h'
  | microOp i hi =>
    obtain ⟨t, hnext⟩ := exec_microOp_completes i s hi
    cases h.symm.trans hnext

/-- Settles O53: the commands stop exactly where the conditions under which they complete fail. -/
theorem instructionsStopExactlyWhereTheSpecSays : Obligations.InstructionsStopExactlyWhereTheSpecSays := by
  refine ⟨fun l f ign s => ?encode, fun f r t ip ign s => ?resample, exec_microOp_completes, exec_ne_refused⟩
  case encode =>
    rw [← not_exists, exec_encode_completes_iff, State.encodeReady]
    cases s.lengthsTrue
    · simp
    · simp only [true_and, Bool.true_eq_false, false_or]
      omega
  case resample =>
    simp only [ne_eq, exec_resample_next_iff, not_and, forall_eq_apply_imp_iff, State.resampleReady]
    cases s.lengthsTrue <;> cases ip <;> simp

/-! ## Who writes the buffers (R30, R33, R61) -/

/-- `ENCODE` leaves the buffer `IN` alone. -/
theorem exec_encode_input {l : Law} {f : Fmt} {ign : BitVec 9} {s t : State}
    (h : exec (.encode l f ign) s = .next t) : t.input = s.input := by
  rcases exec_encode_next_cases h with ⟨-, rfl⟩ | hready
  · simp
  · obtain ⟨htrue, hcheck, hroom⟩ := encodeReady_iff.1 hready
    obtain ⟨u, hwalk, -, -, -, -, -, hin, -⟩ := encodeWalk_next l f (s.windowCount f.bw) (s.start Config.lpfArith)
      (by simpa using hroom) (start_pos_add_windows_lt f _)
    cases h.symm.trans ((exec_encode_of_check l f ign htrue hcheck).trans hwalk)
    exact hin

/-- `ENCODE` reports no more bytes than `OUT_LEN`. -/
theorem exec_encode_count_le {l : Law} {f : Fmt} {ign : BitVec 9} {s t : State}
    (h : exec (.encode l f ign) s = .next t) : t.count.toNat ≤ s.outLen.toNat := by
  rcases exec_encode_next_cases h with ⟨-, rfl⟩ | hready
  · simp
  · obtain ⟨u, hnext, -, hcount, -⟩ := encodeStoresOneByteAWindow l f ign s hready
    cases h.symm.trans hnext
    exact hcount ▸ (encodeReady_iff.1 hready).2.2

@[simp] theorem decimated_buffer (s : State) (f : Fmt) (r t : Rate) (sp : Space) :
    (s.decimated f r t).buffer sp = s.buffer sp := by
  simp [State.decimated]

theorem storeKept_buffer_ne (s : State) (f : Fmt) {sp sp' : Space} (h : sp' ≠ sp) :
    (s.storeKept f sp).buffer sp' = s.buffer sp' := by
  cases sp <;> cases sp'
  case input.output | output.input => rfl
  all_goals exact absurd rfl h

/-- `RESAMPLE` leaves the buffer that is not its destination alone. -/
theorem resampled_buffer_ne (s : State) (f : Fmt) (r t : Rate) {ip : Bool} {sp : Space} (h : sp ≠ resampleDst ip) :
    (s.resampled f r t ip).buffer sp = s.buffer sp := by
  rw [State.resampled, finish_buffer, storeKept_buffer_ne _ _ h, decimated_buffer]

/-- Settles O54: by the groups of instructions; each command has one buffer it leaves alone. -/
theorem onlyTheCommandsWriteTheBuffers : Obligations.OnlyTheCommandsWriteTheBuffers := by
  intro i s t h
  induction i using Instr.byCommand with
  | nop ign => cases h; simp [keepsHostSide]
  | encode l f ign =>
    obtain ⟨-, -, hhost, -⟩ := encodeFrame l f ign s t h
    exact ⟨hhost, .inl (exec_encode_input h), .inr (.inl ⟨l, f, ign, rfl⟩)⟩
  | resample f r u ip ign =>
    obtain ⟨-, rfl⟩ := exec_resample_next_iff.1 h
    refine ⟨keepsHostSide_resampled .., ?_⟩
    cases ip
    · exact ⟨.inl (resampled_buffer_ne s f r u (sp := .input) nofun), .inr (.inr ⟨f, r, u, ign, rfl⟩)⟩
    · exact ⟨.inr ⟨f, r, u, ign, rfl⟩, .inl (resampled_buffer_ne s f r u (sp := .output) nofun)⟩
  | microOp i hi =>
    obtain ⟨hin, hout, hhost, -⟩ := microOperationsWriteTheirRegisterOnly i s t hi h
    exact ⟨hhost, .inl hin, .inl hout⟩

/-- Settles O55: `ENCODE` stores below `COUNT`, `RESAMPLE` in the `N` windows, and both lie inside the lengths. -/
theorem noStoreBeyondTheLengths : Obligations.NoStoreBeyondTheLengths := by
  intro i s t h
  induction i using Instr.byCommand with
  | nop ign => cases h; simp
  | encode l f ign =>
    obtain ⟨hout, hin, -⟩ := encodeFrame l f ign s t h
    exact ⟨fun a _ => hin a, fun a ha => hout a ((exec_encode_count_le h).trans ha)⟩
  | resample f r u ip ign =>
    obtain ⟨⟨-, hsize⟩, rfl⟩ := exec_resample_next_iff.1 h
    have hN := windowCount_mul_le s f.bw
    refine ⟨fun a ha => resampled_readByte_rest _ _ _ _ _ (.inr (hN.trans ha)), fun a ha => ?_⟩
    cases ip
    · exact resampled_readByte_rest _ _ _ _ _ (.inr (hN.trans (hsize rfl ▸ ha)))
    · exact resampled_readByte_rest _ _ _ _ _ (.inl nofun)
  | microOp i hi =>
    obtain ⟨hin, hout, -⟩ := microOperationsWriteTheirRegisterOnly i s t hi h
    exact ⟨fun a _ => readByte_congr (sp := .input) hin a, fun a _ => readByte_congr (sp := .output) hout a⟩

/-! ## STATUS and COUNT (R28, R29, R261) -/

/-- Settles O56: the micro-operations and `NOP` keep both registers; the commands by how they end. -/
theorem onlyEncodeRaisesTheError : Obligations.OnlyEncodeRaisesTheError := by
  intro i s t h
  induction i using Instr.byCommand with
  | nop ign =>
    cases h
    exact .inl ⟨rfl, rfl, by simp, by simp⟩
  | encode l f ign =>
    rcases exec_encode_next_cases h with ⟨hsmall, rfl⟩ | hready
    · exact .inr (.inr ⟨by simp, by simp, hsmall, l, f, ign, rfl⟩)
    · obtain ⟨u, hnext, hstatus, -⟩ := encodeStoresOneByteAWindow l f ign s hready
      cases h.symm.trans hnext
      exact .inr (.inl ⟨hstatus, .inl ⟨l, f, ign, rfl⟩⟩)
  | resample f r u ip ign =>
    obtain ⟨-, rfl⟩ := exec_resample_next_iff.1 h
    exact .inr (.inl ⟨resampled_status s f r u ip, .inr ⟨f, r, u, ip, ign, rfl⟩⟩)
  | microOp i hi =>
    obtain ⟨-, -, -, hstatus, hcount, -⟩ := microOperationsWriteTheirRegisterOnly i s t hi h
    exact .inl ⟨hstatus, hcount, by rintro l f ign rfl; exact hi rfl, by rintro f r u ip ign rfl; exact hi rfl⟩

theorem statusLegal_congr {s t : State} (hs : s.statusLegal) (hstatus : t.status = s.status) (hcount : t.count = s.count) :
    t.statusLegal := by
  rwa [State.statusLegal, hstatus, hcount]

theorem statusLegal_of_exec {i : Instr} {s t : State} (hs : s.statusLegal) (h : exec i s = .next t) : t.statusLegal := by
  rcases onlyEncodeRaisesTheError i s t h with ⟨hstatus, hcount, -⟩ | ⟨hstatus, -⟩ | ⟨hstatus, hcount, -⟩
  · exact statusLegal_congr hs hstatus hcount
  · exact .inr (.inl hstatus)
  · exact .inr (.inr ⟨hstatus, hcount⟩)

/-! ## The buffers stay sound -/

/-- Both buffers are sound. -/
abbrev State.buffersSound (s : State) : Prop := ∀ sp, (s.buffer sp).sound

theorem stateInv_iff {s : State} : StateInv s ↔ s.buffersSound ∧ s.statusLegal :=
  ⟨fun ⟨hin, hout, hstatus⟩ => ⟨fun sp => by cases sp <;> assumption, hstatus⟩,
    fun ⟨hbuf, hstatus⟩ => ⟨hbuf .input, hbuf .output, hstatus⟩⟩

section Sound
variable {s : State} {sp : Space} (hs : s.buffersSound)
include hs

theorem setBuffer_sound {b : Buffer} (hb : b.sound) : (s.setBuffer sp b).buffersSound := by
  intro sp'
  by_cases hsp : sp' = sp
  · rwa [hsp, setBuffer_buffer_self]
  · rw [setBuffer_buffer_ne _ _ hsp]
    exact hs sp'

theorem writeByte_sound {a : Nat} (b : Byte) (ha : a < (s.buffer sp).size.toNat) : (s.writeByte sp a b).buffersSound :=
  setBuffer_sound hs ⟨Memory.wf_insert (hs sp).1 a b, Memory.inside_insert (hs sp).2 ha b⟩

theorem writeBytes_sound {a : Nat} {bs : List Byte} (h : a + bs.length ≤ (s.buffer sp).size.toNat) :
    (s.writeBytes sp a bs).buffersSound :=
  setBuffer_sound hs ⟨Memory.wf_insertBytes (hs sp).1 a bs, Memory.inside_insertBytes (hs sp).2 h⟩

theorem storeWindows_sound {bw k : Nat} {ws : List Window} (hw : ∀ w ∈ ws, w.length = bw)
    (h : (k + ws.length) * bw ≤ (s.buffer sp).size.toNat) : (s.storeWindows sp bw k ws).buffersSound :=
  setBuffer_sound hs ⟨Memory.wf_insertWindows (hs sp).1 bw k ws, Memory.inside_insertWindows (hs sp).2 hw h⟩

theorem storeCode_sound (bw : Nat) (h : s.count.toNat < s.output.size.toNat) : (s.storeCode bw).buffersSound := by
  have hstored := writeByte_sound (sp := .output) hs s.code h
  intro sp
  cases sp <;> [exact hstored .input; exact hstored .output]

/-- The walk of `ENCODE` stores below `OUT_LEN`, which is inside the buffer. -/
theorem encodeWalk_sound {l : Law} {f : Fmt} {n : Nat} {t : State} (hlen : s.outLen.toNat ≤ s.output.size.toNat)
    (h : encodeWalk l f n s = .next t) : t.buffersSound := by
  induction n generalizing s with
  | zero => cases h; exact fun sp => finish_buffer s sp ▸ hs sp
  | succ n ih =>
    obtain ⟨hstore, hfault⟩ := encodeWalk_succ l f n s
    by_cases hroom : (s.encodeWindow l f).outLen ≤ (s.encodeWindow l f).count
    · cases h.symm.trans (hfault hroom)
    · have hcount : s.count.toNat < s.outLen.toNat := by simpa [BitVec.le_def] using hroom
      have hcoded : (s.encodeWindow l f).buffersSound := fun sp => encodeWindow_buffer s f l sp ▸ hs sp
      rw [hstore hroom] at h
      exact ih (storeCode_sound hcoded f.bw (by simpa using hcount.trans_le hlen)) (by simpa using hlen) h

theorem freeWindows_sound {bw k n : Nat} (h : k * bw + (n - k) * bw ≤ (s.buffer sp).size.toNat) :
    (s.freeWindows sp bw k n).buffersSound := by
  have hwritten := writeBytes_sound (sp := sp) hs (a := k * bw)
    (bs := (List.range ((n - k) * bw)).map fun i => Config.freedByte s.draws (k * bw + i)) (by simpa using h)
  intro sp'
  cases sp' <;> [exact hwritten .input; exact hwritten .output]

/-- The stores of `RESAMPLE` lie inside the `N` windows. -/
theorem storeKept_sound {f : Fmt} (hw : ∀ w ∈ s.ow, w.length = f.bw) (hk : s.ow.length ≤ s.windowCount f.bw)
    (hN : s.windowCount f.bw * f.bw ≤ (s.buffer sp).size.toNat) : (s.storeKept f sp).buffersSound := by
  have hkept : (0 + s.ow.length) * f.bw ≤ (s.buffer sp).size.toNat := by
    rw [Nat.zero_add]
    exact (Nat.mul_le_mul_right _ hk).trans hN
  have hsize : ((s.storeWindows sp f.bw 0 s.ow).buffer sp).size = (s.buffer sp).size := setCells_size _ _ _ _
  have hfreed := freeWindows_sound (storeWindows_sound (sp := sp) hs hw hkept) (sp := sp) (bw := f.bw)
    (k := s.ow.length) (n := s.windowCount f.bw) (by rwa [hsize, ← Nat.add_mul, Nat.add_sub_cancel' hk])
  intro sp'
  cases sp' <;> [exact hfreed .input; exact hfreed .output]

/-- `RESAMPLE` stores inside the windows of its destination, which has their room. -/
theorem resampled_sound {ip : Bool} (hready : s.resampleReady ip) (f : Fmt) (r t : Rate) :
    (s.resampled f r t ip).buffersSound := by
  obtain ⟨htrue, hsize⟩ := hready
  obtain ⟨hin, hout⟩ := lengthsTrue_iff.1 htrue
  have hroom : s.inLen.toNat ≤ (s.buffer (resampleDst ip)).size.toNat := by
    cases ip
    · exact hsize rfl ▸ hout
    · exact hin
  have hd : (s.decimated f r t).buffersSound := fun sp => decimated_buffer s f r t sp ▸ hs sp
  have hstored := storeKept_sound (sp := resampleDst ip) hd (decimated_ow_width s f r t) (decimated_ow_length_le s f r t)
    (by rw [decimated_windowCount, decimated_buffer]; exact (windowCount_mul_le s f.bw).trans hroom)
  exact fun sp => (finish_buffer _ sp).symm ▸ hstored sp

end Sound

/-- Every instruction keeps both buffers sound: their length registers are true where a command runs. -/
theorem buffersSound_of_exec {i : Instr} {s t : State} (hs : s.buffersSound) (h : exec i s = .next t) : t.buffersSound := by
  induction i using Instr.byCommand with
  | nop ign => cases h; exact hs
  | encode l f ign =>
    rcases exec_encode_next_cases h with ⟨-, rfl⟩ | ⟨htrue, hcheck, -⟩
    · exact fun sp => by simpa using hs sp
    · rw [exec_encode_of_check l f ign htrue hcheck] at h
      exact encodeWalk_sound (s := s.start Config.lpfArith) (fun sp => by simpa using hs sp)
        (lengthsTrue_iff.1 htrue).2 h
  | resample f r u ip ign =>
    obtain ⟨hready, rfl⟩ := exec_resample_next_iff.1 h
    exact resampled_sound hs hready f r u
  | microOp i hi =>
    obtain ⟨hin, hout, -⟩ := microOperationsWriteTheirRegisterOnly i s t hi h
    have hbuf : ∀ sp, t.buffer sp = s.buffer sp := fun sp => by cases sp <;> [exact hin; exact hout]
    exact fun sp => hbuf sp ▸ hs sp

theorem stateInv_of_exec {i : Instr} {s t : State} (hs : StateInv s) (h : exec i s = .next t) : StateInv t := by
  obtain ⟨hbuf, hstatus⟩ := stateInv_iff.1 hs
  exact stateInv_iff.2 ⟨buffersSound_of_exec hbuf h, statusLegal_of_exec hstatus h⟩

/-! ## The invariant (R28, R29, R61) -/

theorem launch_next_iff {v : Word} {s t : State} :
    launch v s = .next t ↔ ∃ i, decode v = .ok i ∧ exec i { s with cw := v } = .next t := by
  rw [launch]
  cases decode v <;> simp

section HostActions
variable {s t : State} (hs : StateInv s)
include hs

/-- A write of a register is a launch, or leaves buffers, `STATUS` and `COUNT` alone. -/
theorem stateInv_of_writeReg {n : Fin 6} {v : Word} (h : writeReg n v s = .next t) : StateInv t := by
  match n, h with
  | 0, h =>
    obtain ⟨i, -, hexec⟩ := launch_next_iff.1 h
    exact stateInv_of_exec (s := { s with cw := v }) hs hexec
  | 1, h | 2, h | 3, h | 4, h | 5, h => cases h; exact hs

/-- A store of the host lies inside the buffer, or stops. -/
theorem stateInv_of_hostStore {sp : Space} {bytes : List Byte} (h : hostStore sp bytes s = .next t) : StateInv t := by
  obtain ⟨hbuf, hstatus⟩ := stateInv_iff.1 hs
  obtain ⟨hfit, rfl⟩ := hostStore_next_iff.1 h
  exact stateInv_iff.2 ⟨writeBytes_sound hbuf (by rwa [Nat.zero_add]), statusLegal_congr hstatus (by simp) (by simp)⟩

theorem stateInv_of_hostStoreIn {bytes : List Byte} (h : hostStoreIn bytes s = .next t) : StateInv t :=
  stateInv_of_hostStore (s := { s with inLen := BitVec.ofNat 32 bytes.length }) hs h

theorem stateInv_of_hostAct {a : HostAction} (h : hostAct a s = .next t) : StateInv t := by
  obtain ⟨hbuf, hstatus⟩ := stateInv_iff.1 hs
  cases a with
  | writeReg n v => exact stateInv_of_writeReg hs h
  | readReg n => cases h; exact hs
  | storeIn bytes => exact stateInv_of_hostStoreIn hs h
  | storeOut bytes => exact stateInv_of_hostStore hs h
  | storeByte sp a b =>
    obtain ⟨hfit, rfl⟩ := hostStoreByte_next_iff.1 h
    exact stateInv_iff.2 ⟨writeByte_sound hbuf b hfit, statusLegal_congr hstatus (by simp) (by simp)⟩
  | loadByte sp a =>
    obtain ⟨-, rfl⟩ := hostLoadByte_next_iff.1 h
    exact hs
  | supply sp size =>
    cases h
    exact stateInv_iff.2 ⟨setBuffer_sound hbuf ⟨Memory.wf_below (hbuf sp).1 _, Memory.inside_below _ _⟩,
      statusLegal_congr hstatus (by simp) (by simp)⟩
  | copyBack => exact stateInv_of_hostStoreIn hs (hostCopyBack_next_iff.1 h).2

end HostActions

/-- Settles O6: an empty queue is the case of `runPending` that keeps the state. -/
theorem idleStepKeepsTheState : Obligations.IdleStepKeepsTheState := by
  intro s h
  rw [step, runPending, h]

/-- Settles O3: a step is the host's next action (`step_of_pending`); a launch keeps the invariant since every instruction
does (`stateInv_of_exec`), and the host's own stores are bounded by the buffer. -/
theorem stepKeepsTheInvariant : Obligations.StepKeepsTheInvariant := by
  intro s t hs h
  cases hp : s.pending with
  | nil => cases (idleStepKeepsTheState s hp).symm.trans h; exact hs
  | cons a rest => exact stateInv_of_hostAct (s := { s with pending := rest }) hs (step_of_pending hp ▸ h)

/-- Settles O2: at reset nothing is written, and `STATUS` and `COUNT` are 0. -/
theorem resetSatisfiesTheInvariant : Obligations.ResetSatisfiesTheInvariant :=
  ⟨⟨List.Pairwise.nil, nofun⟩, ⟨List.Pairwise.nil, nofun⟩, .inl ⟨rfl, rfl⟩⟩

/-! ## The step of a launch (R5, R27) -/

theorem launch_of_decode {v : Word} {i : Instr} (h : decode v = .ok i) (s : State) :
    launch v s = exec i { s with cw := v } := by
  rw [launch, h]

theorem decode_of_decodeTableWord {nbits w : Nat} {i : Instr} (h : decodeTableWord nbits w = some i) :
    decode (tableWord nbits w) = .ok i := by
  rw [decodeTableWord] at h
  cases hd : decode (tableWord nbits w) <;> simp_all

/-- Settles O4: a pending write of `CW` is a launch, and `withFetchWord` puts one in front of the queue. -/
theorem stepRunsTheDecodedCommand : Obligations.StepRunsTheDecodedCommand := by
  refine ⟨fun s v rest i hp hv => ?_, fun s nbits w i hw => ?_⟩
  · rw [step_of_writeReg hp, writeReg_cw, launch_of_decode hv]
  · have hp : (s.withFetchWord nbits w).pending = .writeReg 0 (tableWord nbits w) :: s.pending := rfl
    rw [step_of_writeReg hp, writeReg_cw, launch_of_decode (decode_of_decodeTableWord hw)]
    rfl

end Sys2Proof.Machine
end

section
/-! PROOF. The families 40_sample_decoder.md and 43_iir_lp_decimator.md, the ranges: the samples each decoder reaches (R133),
and that `pack` of `REF_ARITH` undoes its `unpack` (R197). A window is chosen by its number (`rawBytes`), the number by the
value it has. -/

namespace Sys2Proof.Machine

/-! ## Windows and patterns (R9, R12) -/

theorem pow_256_eq (n : Nat) : 256 ^ n = 2 ^ (8 * n) := by rw [Nat.pow_mul]

/-- The value of a pattern as a signed number determines the pattern. -/
theorem sext_emod {n p : Nat} (hp : p < 2 ^ n) : sext n p % 2 ^ n = p := by
  have hp' : (p : Int) < 2 ^ n := by exact_mod_cast hp
  rw [sext]
  split
  · exact Int.emod_eq_of_lt (by omega) hp'
  · rw [Int.sub_emod_right, Int.emod_eq_of_lt (by omega) hp']

/-- A number in the signed range of `m + 1` bits is the value of its pattern. -/
theorem sext_toNat_emod {m : Nat} {v : Int} (hlo : -2 ^ m ≤ v) (hhi : v < 2 ^ m) :
    sext (m + 1) (v % 2 ^ (m + 1)).toNat = v := by
  have hpow : (2 : Int) ^ (m + 1) = 2 * 2 ^ m := by ring
  have hcast : ((v % 2 ^ (m + 1)).toNat : Int) = v % 2 ^ (m + 1) := Int.toNat_of_nonneg (Int.emod_nonneg _ (by positivity))
  have hhalf : (v % 2 ^ (m + 1)).toNat < 2 ^ m ↔ v % 2 ^ (m + 1) < 2 ^ m := by zify; rw [hcast]
  rw [sext, Nat.add_sub_cancel, hcast]
  simp only [hhalf]
  rcases lt_or_ge v 0 with hneg | hpos
  · have hmod : v % 2 ^ (m + 1) = v + 2 ^ (m + 1) := by
      rw [← Int.add_emod_right, Int.emod_eq_of_lt (by omega) (by omega)]
    rw [hmod, if_neg (by omega)]
    omega
  · rw [Int.emod_eq_of_lt hpos (by omega), if_pos hhi]

theorem toNat_emod_lt (v : Int) (n : Nat) : (v % 2 ^ n).toNat < 2 ^ n := by
  have := Int.emod_lt_of_pos v (show (0 : Int) < 2 ^ n by positivity)
  have := Int.emod_nonneg v (show (2 : Int) ^ n ≠ 0 by positivity)
  zify
  omega

theorem leBytes_leNat (w : Window) : leBytes w.length (leNat w) = w := by
  induction w with
  | nil => rfl
  | cons b bs ih =>
    have hb := b.isLt
    have hlow : BitVec.ofNat 8 (b.toNat + 256 * leNat bs) = b := by
      apply BitVec.eq_of_toNat_eq
      rw [BitVec.toNat_ofNat]
      omega
    have hrest : (b.toNat + 256 * leNat bs) / 256 = leNat bs := by omega
    rw [List.length_cons, leNat, leBytes, hlow, hrest, ih]

/-- A window is the byte sequence of its number. -/
theorem rawBytes_rawNat (le : Bool) (w : Window) : rawBytes le w.length (rawNat le w) = w := by
  cases le
  · have h := leBytes_leNat w.reverse
    rw [List.length_reverse] at h
    simp [rawBytes, beBytes, rawNat, beNat, h]
  · exact leBytes_leNat w

section Formats
variable {f : Fmt}

theorem rawNat_lt_of_length {w : Window} (hw : w.length = f.bw) : rawNat f.le w < 2 ^ (8 * f.bw) := by
  rw [← pow_256_eq, ← hw]
  exact rawNat_lt f.le w

/-- A pattern of the format's width is that of its byte sequence. -/
theorem rawNat_rawBytes_of_lt {p : Nat} (hp : p < 2 ^ (8 * f.bw)) : rawNat f.le (rawBytes f.le f.bw p) = p := by
  rw [rawNat_rawBytes, pow_256_eq, Nat.mod_eq_of_lt hp]

/-! ## The integer formats reach their range (R133) -/

/-- The number an integer decoder makes of a window. -/
theorem decodeSample_toInt (hf : f.kind ≠ .float) {w : Window} (hw : w.length = f.bw) :
    (decodeSample f w).toInt = integerSample f (rawNat f.le w) := by
  obtain ⟨hlo, hhi⟩ := integerSample_range f (rawNat_lt_of_length hw)
  rw [decodeSample_integer hf, BitVec.toInt_ofInt_eq_self (by decide) hlo hhi]

/-- Every value of the format's width is that of some window. -/
theorem exists_window_integerValue (f : Fmt) {v : Int} (hlo : -2 ^ (8 * f.bw - 1) ≤ v) (hhi : v < 2 ^ (8 * f.bw - 1)) :
    ∃ w : Window, w.length = f.bw ∧ integerValue f (rawNat f.le w) = v := by
  suffices h : ∃ p < 2 ^ (8 * f.bw), integerValue f p = v by
    obtain ⟨p, hp, rfl⟩ := h
    exact ⟨rawBytes f.le f.bw p, rawBytes_length .., by rw [rawNat_rawBytes_of_lt hp]⟩
  obtain ⟨m, hm⟩ : ∃ m, 8 * f.bw = m + 1 := ⟨8 * f.bw - 1, by have := Fmt.bw_pos f; omega⟩
  simp only [hm, Nat.add_sub_cancel, integerValue] at hlo hhi ⊢
  split
  next => exact ⟨_, toNat_emod_lt v _, sext_toNat_emod hlo hhi⟩
  next =>
    have hpow : (2 : Int) ^ (m + 1) = 2 * 2 ^ m := by ring
    exact ⟨(v + 2 ^ m).toNat, by zify; omega, by omega⟩

/-- The 8-bit formats scale by 256 (R112, R113). -/
theorem decodeSample_toInt_of_one (hf : f.kind ≠ .float) (hbw : f.bw = 1) {w : Window} (hw : w.length = f.bw) :
    (decodeSample f w).toInt = 256 * integerValue f (rawNat f.le w) := by
  rw [decodeSample_toInt hf hw, integerSample, if_pos hbw, Int.mul_comm]

theorem sample_toInt_range (x : Sample) : -32768 ≤ x.toInt ∧ x.toInt < 32768 := ⟨BitVec.le_toInt x, BitVec.toInt_lt⟩

/-- A format of 16 bits or more reaches every sample: by the window whose value is the sample scaled up. -/
theorem exists_window_decodeSample (hf : f.kind ≠ .float) (hbw : 2 ≤ f.bw) (x : Sample) :
    ∃ w : Window, w.length = f.bw ∧ decodeSample f w = x := by
  obtain ⟨hmin, hmax⟩ := sample_toInt_range x
  have hbits : 8 * f.bw - 1 = 15 + (8 * f.bw - 16) := by omega
  have hpos : (0 : Int) < 2 ^ (8 * f.bw - 16) := by positivity
  obtain ⟨w, hw, hv⟩ := exists_window_integerValue f (v := x.toInt * 2 ^ (8 * f.bw - 16))
    (by rw [hbits, Int.pow_add]; nlinarith) (by rw [hbits, Int.pow_add]; nlinarith)
  refine ⟨w, hw, BitVec.eq_of_toInt_eq ?_⟩
  rw [decodeSample_toInt hf hw, integerSample, if_neg (by omega), hv, Int.mul_ediv_cancel _ hpos.ne']

end Formats

/-- Settles O22: an 8-bit sample is 256 times a value, and every value is that of a window; the wider formats by
`exists_window_decodeSample`. -/
theorem integerDecodersHaveTheirRange : Obligations.IntegerDecodersHaveTheirRange := by
  refine ⟨fun f hf => ?narrow, fun f hf => ?wide⟩
  case narrow =>
    obtain ⟨hkind, hbw⟩ : f.kind ≠ .float ∧ f.bw = 1 := by
      revert f
      decide
    refine ⟨fun w hw => ?_, fun k hlo hhi => ?_⟩
    · obtain ⟨hlo, hhi⟩ := integerValue_range f (rawNat_lt_of_length hw)
      rw [hbw] at hlo hhi
      exact ⟨_, hlo, by omega, decodeSample_toInt_of_one hkind hbw hw⟩
    · obtain ⟨w, hw, rfl⟩ := exists_window_integerValue f (v := k) (by rw [hbw]; omega) (by rw [hbw]; omega)
      exact ⟨w, hw, decodeSample_toInt_of_one hkind hbw hw⟩
  case wide =>
    obtain ⟨hkind, hbw⟩ : f.kind ≠ .float ∧ 2 ≤ f.bw := by
      revert f
      decide
    exact exists_window_decodeSample hkind hbw

/-! ## Rounding a number near an integer -/

theorem roundHalfAway_eq {q : Rat} {v : Int} (hlo : v - 1 / 2 < q) (hhi : q < v + 1 / 2) : roundHalfAway q = v := by
  obtain ⟨hle, hge⟩ := roundHalfAway_near q
  have hup : (roundHalfAway q : Rat) < v + 1 := by linarith
  have hdown : (v : Rat) < roundHalfAway q + 1 := by linarith
  have hup' : roundHalfAway q < v + 1 := by exact_mod_cast hup
  have hdown' : v < roundHalfAway q + 1 := by exact_mod_cast hdown
  omega

theorem roundHalfAway_intCast (v : Int) : roundHalfAway (v : Rat) = v := roundHalfAway_eq (by linarith) (by linarith)

/-! ## The reference arithmetic (R197) -/

/-- `pack` of `REF_ARITH` stores the pattern of the value `unpack` read, which the clamp lets through. -/
theorem refPackInt_refUnpack {f : Fmt} (hf : f.kind ≠ .float) {w : Window} (hw : w.length = f.bw) :
    refPackInt f (refUnpack f w) % 2 ^ (8 * f.bw) = rawNat f.le w := by
  have hp := rawNat_lt_of_length hw
  have hbw := Fmt.bw_pos f
  cases hk : f.kind with
  | signed =>
    obtain ⟨hlo, hhi⟩ := sext_range (n := 8 * f.bw) (by omega) hp
    simp only [refPackInt, refUnpack, hk, roundHalfAway_intCast]
    rw [clampInt_eq_self hlo (by omega), sext_emod hp]
  | unsigned =>
    have hp' : (rawNat f.le w : Int) < 2 ^ (8 * f.bw) := by exact_mod_cast hp
    have hround : roundHalfAway (rawNat f.le w : Rat) = rawNat f.le w := roundHalfAway_intCast (rawNat f.le w)
    simp only [refPackInt, refUnpack, hk, hround]
    rw [clampInt_eq_self (by omega) (by omega), Int.emod_eq_of_lt (by omega) hp']
  | float => exact absurd hk hf

/-- Settles O35: `pack` writes the bytes of the pattern `unpack` read. -/
theorem referencePackUndoesUnpack : Obligations.ReferencePackUndoesUnpack := by
  refine ⟨fun f w hf hw => ?_, fun f q t ip s hf => if_pos ⟨hf, nofun⟩⟩
  calc (refArith.pack f (refArith.unpack f w)).toList
      = refPack f (refUnpack f w) := by simp [refArith]
    _ = rawBytes f.le w.length (rawNat f.le w) := by rw [refPack, refPackInt_refUnpack hf hw, Int.toNat_natCast, hw]
    _ = w := rawBytes_rawNat f.le w

/-! ## The float formats reach every sample (R133) -/

theorem ieee_pattern_lt {E F s e f : Nat} (hs : s < 2) (he : e < 2 ^ E) (hf : f < 2 ^ F) :
    s * 2 ^ (E + F) + e * 2 ^ F + f < 2 ^ (1 + E + F) := by
  have hsign : s * 2 ^ (E + F) ≤ 1 * 2 ^ (E + F) := Nat.mul_le_mul_right _ (by omega)
  have hexp : (e + 1) * 2 ^ F ≤ 2 ^ E * 2 ^ F := Nat.mul_le_mul_right _ he
  rw [Nat.add_mul, ← Nat.pow_add] at hexp
  rw [Nat.add_assoc 1, Nat.pow_add 2 1]
  omega

/-- Every `±n / 2 ^ 17` with a significand of at most 18 bits is the value of a pattern of a wide enough format. -/
theorem exists_ieee_eq {E F s n : Nat} (hE : 8 ≤ E) (hF : 23 ≤ F) (hs : s < 2) (hpos : 0 < n) (hn : n < 2 ^ 18) :
    ∃ p < 2 ^ (1 + E + F), ieee p E F = .fin ((-1) ^ s * (n * (2 : Rat) ^ (-17 : Int))) := by
  have hlo : 2 ^ Nat.log 2 n ≤ n := Nat.pow_log_le_self 2 (by omega)
  have hhi : n < 2 ^ (Nat.log 2 n + 1) := Nat.lt_pow_succ_log_self (by decide) n
  have hL : Nat.log 2 n ≤ 17 := Nat.le_of_lt_succ (Nat.log_lt_of_lt_pow (by omega) hn)
  generalize Nat.log 2 n = L at hlo hhi hL
  obtain ⟨d, rfl⟩ : ∃ d, F = L + d := ⟨F - L, by omega⟩
  have hbias : 2 ^ 7 ≤ 2 ^ (E - 1) := Nat.pow_le_pow_right (by decide) (by omega)
  have hmax : 2 ^ E = 2 * 2 ^ (E - 1) := by rw [← Nat.pow_succ']; congr 1; omega
  have hsig : 2 ^ (L + d) ≤ n * 2 ^ d := by rw [Nat.pow_add]; exact Nat.mul_le_mul_right _ hlo
  have hsig' : n * 2 ^ d < 2 * 2 ^ (L + d) := by
    rw [show 2 * 2 ^ (L + d) = 2 ^ (L + 1) * 2 ^ d by ring]
    exact Nat.mul_lt_mul_of_pos_right hhi (by positivity)
  have he : 2 ^ (E - 1) - 1 + L - 17 < 2 ^ E := by omega
  have hf : n * 2 ^ d - 2 ^ (L + d) < 2 ^ (L + d) := by omega
  refine ⟨_, ieee_pattern_lt hs he hf, (ieee_of_fields hs he hf).trans ?_⟩
  have hsigCast : (2 : Rat) ^ (L + d) + (n * 2 ^ d - 2 ^ (L + d) : Nat) = n * 2 ^ d := by
    push_cast [hsig]
    ring
  have hexp : ((2 ^ (E - 1) - 1 + L - 17 : Nat) : Int) - (2 ^ (E - 1) - 1) - (L + d : Nat) = -17 - d := by
    have : ((2 ^ (E - 1) : Nat) : Int) = 2 ^ (E - 1) := by push_cast; rfl
    omega
  rw [if_neg (by omega), if_neg (by omega), hsigCast, hexp, zpow_sub₀ two_ne_zero, zpow_natCast, mul_assoc,
    mul_div_cancel₀ _ (by positivity)]

/-- Within half a unit of every magnitude of a sample lies the product by 32767 of some `n / 2 ^ 17` (R131). -/
theorem exists_near_product {m : Nat} (hm : m ≤ 32768) : ∃ n : Nat, 0 < n ∧ n < 2 ^ 18 ∧
    (m : Rat) - 1 / 2 < n * (2 : Rat) ^ (-17 : Int) * 32767 ∧ n * (2 : Rat) ^ (-17 : Int) * 32767 < m + 1 / 2 := by
  have hpow : (2 : Rat) ^ (-17 : Int) = 1 / 131072 := by norm_num
  have hm' : (m : Rat) ≤ 32768 := by exact_mod_cast hm
  rw [hpow]
  rcases Nat.lt_or_ge m 16384 with h | h
  · have : (m : Rat) < 16384 := by exact_mod_cast h
    have : (0 : Rat) ≤ m := by positivity
    refine ⟨4 * m + 1, by omega, by omega, ?_, ?_⟩ <;> push_cast <;> linarith
  · have : (16384 : Rat) ≤ m := by exact_mod_cast h
    refine ⟨4 * m + 4, by omega, by omega, ?_, ?_⟩ <;> push_cast <;> linarith

/-- A value within half a unit of a sample rounds to the sample. -/
theorem floatToSample_near (nan x : Sample) {r : Rat} (hlo : (x.toInt : Rat) - 1 / 2 < r * 32767)
    (hhi : r * 32767 < x.toInt + 1 / 2) : floatToSample nan (.fin r) = x := by
  apply BitVec.eq_of_toInt_eq
  obtain ⟨hmin, hmax⟩ := sample_toInt_range x
  rw [floatToSample_fin_toInt, roundHalfAway_eq hlo hhi, clampInt_eq_self hmin (by omega)]

/-- Some value of a pattern is within half a unit of every sample. -/
theorem exists_ieee_sample {E F : Nat} (hE : 8 ≤ E) (hF : 23 ≤ F) (nan x : Sample) :
    ∃ p < 2 ^ (1 + E + F), floatToSample nan (ieee p E F) = x := by
  obtain ⟨hmin, hmax⟩ := sample_toInt_range x
  obtain ⟨n, hpos, hn, hbelow, habove⟩ := exists_near_product (m := x.toInt.natAbs) (by omega)
  rcases le_or_gt 0 x.toInt with hx | hx
  · have habs : ((x.toInt.natAbs : Nat) : Rat) = x.toInt := by
      rw [← Int.cast_natCast, Int.natAbs_of_nonneg hx]
    obtain ⟨p, hp, hieee⟩ := exists_ieee_eq (s := 0) hE hF (by decide) hpos hn
    rw [habs] at hbelow habove
    exact ⟨p, hp, hieee ▸ floatToSample_near nan x (by linarith) (by linarith)⟩
  · have habs : ((x.toInt.natAbs : Nat) : Rat) = -x.toInt := by
      rw [← Int.cast_natCast, Int.ofNat_natAbs_of_nonpos hx.le, Int.cast_neg]
    obtain ⟨p, hp, hieee⟩ := exists_ieee_eq (s := 1) hE hF (by decide) hpos hn
    rw [habs] at hbelow habove
    exact ⟨p, hp, hieee ▸ floatToSample_near nan x (by linarith) (by linarith)⟩

/-- The IEEE format a float format reads: it fills the window, with 8 exponent and 23 fraction bits or more. -/
theorem floatValue_eq_ieee {f : Fmt} (hf : f.kind = .float) : ∃ E F, 8 ≤ E ∧ 23 ≤ F ∧ 1 + E + F = 8 * f.bw ∧
    ∀ w, floatValue f w = ieee (rawNat f.le w) E F := by
  cases f
  case f32be | f32le => exact ⟨8, 23, by decide, by decide, rfl, floatValue_four rfl⟩
  case f64be | f64le => exact ⟨11, 52, by decide, by decide, rfl, floatValue_eight rfl⟩
  all_goals cases hf

/-- Every window of a format stands in `WIN` in some state. -/
theorem exists_state_window {f : Fmt} {w : Window} (hw : w.length = f.bw) : ∃ s : State, s.window f.bw = w := by
  have h := mergeWin_take State.reset.win (w := w) (hw ▸ Fmt.bw_le f)
  exact ⟨{ State.reset with win := mergeWin State.reset.win w }, hw ▸ h⟩

/-- Settles O60: the pattern of a value within half a unit of the sample, written out as the window. -/
theorem floatDecodersReachEverySample : Obligations.FloatDecodersReachEverySample := by
  intro f hf x
  have hkind : f.kind = .float := by
    revert f
    decide
  obtain ⟨E, F, hE, hF, hbits, hvalue⟩ := floatValue_eq_ieee hkind
  obtain ⟨p, hp, hsample⟩ := exists_ieee_sample hE hF Config.nanSample x
  rw [hbits] at hp
  obtain ⟨s, hs⟩ := exists_state_window (f := f) (rawBytes_length f.le f.bw p)
  refine ⟨s, _, exec_dec f s, ?_⟩
  rw [runDec_sample, hs, decodeSample_float hkind, hvalue, rawNat_rawBytes_of_lt hp, hsample]

end Sys2Proof.Machine
end

section
/-! PROOF. The worked examples of the spec: the strides and the filter (R208), `RESAMPLE` (R221), `ENCODE` of the source's
fixture (R244). Each runs the model on the example's numbers, under the arithmetic and the coefficients of R197. -/

namespace Sys2Proof.Machine

/-! ## The filter and the decimator -/

theorem testCoef_eq (q : FiltRate) : testCoef q = ⟨1 / 8, -1 / 4, 1 / 2, 1 / 4, -1 / 8⟩ := rfl

/-- Settles O34: the test coefficients are the same at every rate, so the filter runs once. -/
theorem stridesAndWorkedFilterExample : Obligations.StridesAndWorkedFilterExample := by
  refine ⟨by decide, fun q => ?_⟩
  rw [testCoef_eq]
  decide +kernel

/-! ## RESAMPLE under the reference arithmetic -/

/-- The state `RESAMPLE` under the reference arithmetic ends in where its conditions are met. -/
def State.resampledRef (s : State) (f : Fmt) (r t : Rate) (ip : Bool) : State :=
  (((((s.start refArith).fetchWindows f.bw).runLpf refArith testCoef r f).runDecim r t).storeKept f
    (resampleDst ip)).finish

theorem resampleRef_of_ready {s : State} {f : Fmt} {r : Rate} {ip : Bool} (hf : f.kind ≠ .float)
    (h : s.resampleReady ip) (t : Rate) : resampleRef f r t ip s = .next (s.resampledRef f r t ip) := by
  obtain ⟨htrue, hsize⟩ := h
  have hmatch : (!ip && s.outLen != s.inLen) = false := by
    cases ip
    · simp [hsize rfl]
    · rfl
  rw [resampleRef, if_neg (fun hfloat => hf hfloat.1)]
  simp [resampleWith, htrue, hmatch, State.resampledRef]

/-- `RESAMPLE` under the reference arithmetic leaves the buffer that is not its destination alone. -/
theorem resampledRef_readByte_ne (s : State) (f : Fmt) (r t : Rate) {ip : Bool} {sp : Space} (h : sp ≠ resampleDst ip)
    (a : Nat) : (s.resampledRef f r t ip).readByte sp a = s.readByte sp a := by
  rw [State.resampledRef, finish_readByte, readByte_congr (storeKept_buffer_ne _ f h)]
  simp

/-- Settles O40: `OUT` is the destination, so `IN` is kept; the rest by running the command. -/
theorem resampleWorkedExample : Obligations.ResampleWorkedExample := by
  refine ⟨by decide, _, resampleRef_of_ready (by decide) ⟨by decide +kernel, fun _ => rfl⟩ _, ?front, ?beyond,
    resampledRef_readByte_ne _ _ _ _ (by decide), ?count, ?status⟩
  all_goals decide +kernel

/-! ## The source's fixture -/

/-- A launch of `ENCODE` with two windows of two bytes and room for their codes stores the two codes. -/
theorem step_encode_two_windows {s : State} {w : Nat} {codes : List Byte} (l : Law) (f : Fmt)
    (hw : decodeTableWord 32 w = some (.encode l f 0#9)) (hbw : f.bw = 2) (htrue : s.lengthsTrue = true)
    (hin : s.inLen = 4#32) (hout : s.outLen = 2#32)
    (hcodes : [s.codeOfWindow l f 0, s.codeOfWindow l f 1] = codes) :
    ∃ t, step (s.withFetchWord 32 w) = .next t ∧ t.readBytes .output 0 2 = codes ∧ t.count = 2#32 ∧
      t.status = 0x01#32 := by
  have hready : s.encodeReady f := ⟨htrue, by rw [hin, hout]; decide, fun hone => by omega⟩
  have hN : s.inLen.toNat / f.bw = 2 := by rw [hin, hbw]; rfl
  obtain ⟨t, hnext, hstatus, hcount, -, hstored, -⟩ :=
    encodeStoresOneByteAWindow l f 0#9 { s with cw := tableWord 32 w } hready
  replace hcount : t.count.toNat = 2 := hcount.trans hN
  replace hstored : ∀ k < 2, t.readByte .output k = s.codeOfWindow l f k := fun k hk => hstored k (hN.symm ▸ hk)
  refine ⟨t, (stepRunsTheDecodedCommand.2 s 32 w _ hw).trans hnext, ?_, BitVec.eq_of_toNat_eq hcount, hstatus⟩
  rw [← hcodes, ← hstored 0 (by decide), ← hstored 1 (by decide)]
  rfl

/-- Settles O46: each row stores the codes of its two windows, which the decoder and the compander are run for. -/
theorem sourceFixtureEncodes : Obligations.SourceFixtureEncodes := by
  intro p hp
  fin_cases hp
  · exact step_encode_two_windows .mulaw .s16be (by decide) rfl rfl rfl rfl (by decide +kernel)
  · exact step_encode_two_windows .alaw .s16be (by decide) rfl rfl rfl rfl (by decide +kernel)
  · exact step_encode_two_windows .mulaw .s16le (by decide) rfl rfl rfl rfl (by decide +kernel)
  · exact step_encode_two_windows .alaw .s16le (by decide) rfl rfl rfl rfl (by decide +kernel)

end Sys2Proof.Machine
end
